-- ==== Sys2Proof/Word.lean ====
section
/-! DEFINITION. The word and byte types of CRCTG (R10 00_scope.md: register and datapath values are 32-bit unsigned). -/

namespace Sys2Proof

/-- A register, bus data or datapath value: 32 bits, unsigned (R8 `DATA_BITS`, R10, R18). -/
abbrev Word := BitVec 32

/-- A byte lane of the bus word, and the byte index of BYTEREM (R49, R67). -/
abbrev Byte := BitVec 8

end Sys2Proof
end

