-- ==== Sys2Proof/Syntax.lean ====
section
/-! DEFINITION. The commands of CRCTG, one constructor per row of spec/opcode_table.json. -/

namespace Sys2Proof

/-- A decoded command (R70 30_encoding.md). Only the fields a command uses are kept: R71 makes every other field 0. -/
inductive Instr where
  /-- NOP (R87): the lifecycle and nothing else. -/
  | nop
  /-- REFLECT (R92), with the BC field, bits 21..16 of the word (R68). -/
  | reflect (bc : BitVec 6)
  /-- MASK (R98). -/
  | mask
  /-- BYTEREM (R107), with the IDX field, bits 15..8 of the word (R67). -/
  | byterem (idx : BitVec 8)
  /-- GENERATE (R108, R109). -/
  | generate
  /-- LDDEF (R113). -/
  | lddef
  deriving DecidableEq, Repr

end Sys2Proof
end

