-- ==== Sys2Proof/WellFormed.lean ====
section
/-! DEFINITION. Which terms of `Instr` stand for a legal command. -/

namespace Sys2Proof

/-- The one constraint R70 puts on a field beyond its width: REFLECT's bit count is at most 32 (R68).
Every value of IDX is a legal byte index (R67). -/
def Instr.wellFormed : Instr → Bool
  | .nop => true
  | .reflect bc => decide (bc.toNat ≤ 32)
  | .mask => true
  | .byterem _ => true
  | .generate => true
  | .lddef => true

end Sys2Proof
end

