-- ==== Sys2Proof/Decode.lean ====
section
/-! DEFINITION. Decoding and encoding of the 32-bit command word (30_encoding.md, R64 to R76). -/

namespace Sys2Proof

/-- OP, bits 7..0 (R66). -/
def opField (v : Word) : BitVec 8 := v.extractLsb' 0 8

/-- IDX, bits 15..8 (R67). -/
def idxField (v : Word) : BitVec 8 := v.extractLsb' 8 8

/-- BC, bits 21..16 (R68). -/
def bcField (v : Word) : BitVec 6 := v.extractLsb' 16 6

/-- RSV, bits 31..22, 0 in every legal command (R69). -/
def rsvField (v : Word) : BitVec 10 := v.extractLsb' 22 10

/-- Why a word is illegal (R72). -/
inductive IllegalWord where
  /-- OP in [0x06, 0xFF]. -/
  | reservedOpcode
  /-- A legal OP with a nonzero field it must leave 0. -/
  | unusedFieldNonzero
  /-- REFLECT with BC in [33, 63]. -/
  | bitCountAbove32
  deriving DecidableEq, Repr

/-- What a 32-bit word decodes to. -/
inductive Decoded where
  | command (i : Instr)
  | illegal (why : IllegalWord)
  deriving DecidableEq, Repr

/-- The command, when every field it must leave 0 is 0. -/
def whenUnusedZero (unusedZero : Bool) (i : Instr) : Decoded :=
  if unusedZero then .command i else .illegal .unusedFieldNonzero

/-- The decoder, total on all 2^32 words, by the opcode map R70 and the field rules R65 to R69 and R72. -/
def decode (v : Word) : Decoded :=
  let noIdx := idxField v == 0
  let noBc := bcField v == 0
  let noRsv := rsvField v == 0
  if opField v = 0x00#8 then whenUnusedZero (noIdx && noBc && noRsv) .nop
  else if opField v = 0x01#8 then
    if (bcField v).toNat ≤ 32 then whenUnusedZero (noIdx && noRsv) (.reflect (bcField v))
    else .illegal .bitCountAbove32
  else if opField v = 0x02#8 then whenUnusedZero (noIdx && noBc && noRsv) .mask
  else if opField v = 0x03#8 then whenUnusedZero (noBc && noRsv) (.byterem (idxField v))
  else if opField v = 0x04#8 then whenUnusedZero (noIdx && noBc && noRsv) .generate
  else if opField v = 0x05#8 then whenUnusedZero (noIdx && noBc && noRsv) .lddef
  else .illegal .reservedOpcode

/-- R71's predicate, written as the spec writes it, apart from the decoder. -/
def legal (v : Word) : Bool :=
  v == 0x00000000#32
  || ((v &&& 0xFFC0FFFF#32) == 0x00000001#32 && decide ((v.extractLsb' 16 6).toNat ≤ 32))
  || v == 0x00000002#32
  || (v &&& 0xFFFF00FF#32) == 0x00000003#32
  || v == 0x00000004#32
  || v == 0x00000005#32

/-- The mask column of the opcode map R70. -/
def Instr.rowMask : Instr → Word
  | .nop => 0xFFFFFFFF
  | .reflect _ => 0xFFC0FFFF
  | .mask => 0xFFFFFFFF
  | .byterem _ => 0xFFFF00FF
  | .generate => 0xFFFFFFFF
  | .lddef => 0xFFFFFFFF

/-- The match column of the opcode map R70. -/
def Instr.rowMatch : Instr → Word
  | .nop => 0x00000000
  | .reflect _ => 0x00000001
  | .mask => 0x00000002
  | .byterem _ => 0x00000003
  | .generate => 0x00000004
  | .lddef => 0x00000005

/-- The encoder: the word each mnemonic line of R76 writes to CMD. -/
def encode : Instr → Word
  | .nop => 0x00000000
  | .reflect bc => (bc.setWidth 32 <<< 16) ||| 0x00000001
  | .mask => 0x00000002
  | .byterem idx => (idx.setWidth 32 <<< 8) ||| 0x00000003
  | .generate => 0x00000004
  | .lddef => 0x00000005

/-- The decoder on a word numbered as spec/opcode_table.json numbers it: a command is one 32-bit word, and the bits
above `nbits` are 0. A number that does not fit in 32 bits is no command word (R64). -/
def decodeTableWord (nbits w : Nat) : Option Instr :=
  let v := w % 2 ^ nbits
  if v < 2 ^ 32 then
    match decode (BitVec.ofNat 32 v) with
    | .command i => some i
    | .illegal _ => none
  else none

end Sys2Proof
end

