-- ==== Sys2Proof/Config.lean ====
section
/-! DEFINITION. What is fixed for one CRCTG: the parameters of R8 (00_scope.md) and the values the spec leaves open. -/

namespace Sys2Proof.Config

/-- Bytes of the register window (R8 `OFFSET_BITS` = 11, R45). -/
def windowBytes : Nat := 2048

/-- OPEN parameter of R8: which 2048-byte page of the platform's address space holds the window.
It has no value in the model: every statement holds for every base (D2; log 3). -/
opaque basePage : Nat

/-- `CRCTG_BASE`, aligned to 2048 bytes (R45). -/
def crctgBase : Nat := windowBytes * basePage

/-- FREE VALUE: entry `i` of the table RAM after the `draw`-th reset step (R136: "unspecified, and may differ from
entry to entry and from reset to reset"; log 8). -/
opaque tableAfterReset (draw : Nat) (i : Nat) : Word

/-- The width of the source's default model (R8, R113). -/
def defaultWidth : BitVec 6 := 16

/-- The polynomial of the source's default model (R8, R113). -/
def defaultPoly : Word := 0x00005935

end Sys2Proof.Config
end

