-- ==== Sys2Proof/Machine/State.lean ====
section
/-! DEFINITION. The state of CRCTG (10_state.md), the events that move it, and the ways a step can stop. -/

namespace Sys2Proof.Machine

/-- The size of a host access, 1, 2 or 4 bytes (R11). -/
inductive Size where
  | byte
  | half
  | word
  deriving DecidableEq, Repr

/-- One host bus access at a platform byte address (R11, R53, R54). The data of a narrow write travels in the low bits;
no rule reads it (log 21). -/
inductive Access where
  | read (addr : Nat) (size : Size)
  | write (addr : Nat) (size : Size) (v : Word)
  deriving DecidableEq, Repr

/-- A step of one of the agents of R14, or a reset step. -/
inductive Event where
  /-- The host makes one bus access. -/
  | host (a : Access)
  /-- The engine completes the pending command (R84). -/
  | engine
  /-- The reset step (R134). -/
  | reset
  deriving DecidableEq, Repr

/-- What CRCTG answers a host access (R50, R53, R54). -/
inductive Response where
  /-- A read's data. -/
  | data (v : Word)
  /-- A write's OK, also where the write was dropped with an error bit (R116). -/
  | ok
  /-- The bus error response; a read that returns it returns no data (R120). -/
  | busError
  deriving DecidableEq, Repr

/-- The recorded errors (R117). -/
inductive Err where
  | cfg
  | cmd
  | busy
  | acc
  deriving DecidableEq, Repr

/-- The whole state the spec gives CRCTG: exactly the record of R16. -/
structure Block where
  /-- WIDTH, an integer in [8, 32], held in the 6 bits R18 leaves it (log 12). -/
  width : BitVec 6
  poly : Word
  /-- FLAGS.REFIN, `reflectInput` (R33). -/
  refin : Bool
  /-- FLAGS.REFOUT, inert (R33, R39). -/
  refout : Bool
  /-- INIT, inert (R34, R39). -/
  init : Word
  /-- XOROUT, inert (R34, R39). -/
  xorout : Word
  operand : Word
  result : Word
  /-- STATUS.VALID (R25). -/
  valid : Bool
  /-- STATUS.DONE (R26). -/
  done : Bool
  cfgErr : Bool
  cmdErr : Bool
  busyErr : Bool
  accErr : Bool
  /-- The table RAM `T`: 256 entries of 32 bits (R37; log 9). -/
  table : Vector Word 256
  /-- `PEND`: none, or the decoded pending command (R41; log 11). -/
  pend : Option Instr
  deriving DecidableEq, Repr

/-- The machine: CRCTG, and what the outside world does to it. Only `block` is the spec's state; the other three fields are
the model's own (logs 1, 2, 8). -/
structure State where
  block : Block
  /-- The events still to come, the next one first: one interleaving of R56 (log 1). -/
  agenda : List Event
  /-- What CRCTG answered the last host access; none where it answered nothing (log 2). -/
  response : Option Response
  /-- How many reset steps were taken: the argument of the free value of the table RAM after reset (log 8). -/
  draws : Nat
  deriving DecidableEq, Repr

/-- Why the machine is stuck. -/
inductive Fault where
  /-- Raised by `step` alone, where the agenda gives the engine a step while nothing is pending: R84's step is "enabled
  exactly when `PEND` is not none", so the spec has no such step. Safe: the model stops where CRCTG has no behaviour (log 6). -/
  | engineNotEnabled
  deriving DecidableEq, Repr

/-- Why a command has no meaning. -/
inductive Refusal where
  /-- For an arm of `exec` with no meaning yet. No arm uses it: all six commands are modelled. Safe. -/
  | notModelled (mnemonic : String)
  deriving DecidableEq, Repr

/-- The values of R44. The table RAM is unspecified there; `State.reset` names 0 for every entry (log 7). -/
def Block.reset : Block where
  width := Config.defaultWidth
  poly := Config.defaultPoly
  refin := false
  refout := false
  init := 0
  xorout := 0
  operand := 0
  result := 0
  valid := false
  done := false
  cfgErr := false
  cmdErr := false
  busyErr := false
  accErr := false
  table := Vector.replicate 256 0
  pend := none

/-- The machine right after reset (R44), with no event to come and no access answered (logs 1, 2, 7, 8). -/
def State.reset : State where
  block := Block.reset
  agenda := []
  response := none
  draws := 0

end Sys2Proof.Machine
end

