-- ==== Sys2Proof/Machine/Operands.lean ====
section
/-! DEFINITION. The operand forms of the commands and of the bus: fields of the command word, the model registers, table
entries and byte lanes (R10, R38, R49, R67, R68, R101). -/

namespace Sys2Proof.Machine

/-- `zext_32(v)`: `v` in a 32-bit word with the high bits zero (R10). -/
def zext32 {n : Nat} (v : BitVec n) : Word := v.setWidth 32

/-- REFLECT's `bitCount`, the BC field read unsigned (R68). -/
def bitCount (bc : BitVec 6) : Nat := bc.toNat

/-- The `width` argument of MASK, BYTEREM and GENERATE: register WIDTH (R98, R101). -/
def Block.widthArg (b : Block) : Nat := b.width.toNat

/-- Table entry `T[i]` (R37). -/
def Block.entry (b : Block) (i : BitVec 8) : Word := b.table[i.toNat]'i.isLt

/-- STATUS.BUSY is not stored: 1 exactly while a command is pending (R24). -/
def Block.busy (b : Block) : Bool := b.pend.isSome

/-- Byte lane `j` of the bus word carries bits `8j+7` down to `8j` (R49). No access of CRCTG is narrower than the word, so
nothing else reads a lane. -/
def busLane (v : Word) (j : Fin 4) : Byte := v.extractLsb' (8 * j.val) 8

end Sys2Proof.Machine
end

