-- ==== Sys2Proof/Machine/Flags.lean ====
section
/-! DEFINITION. STATUS and FLAGS: how they read, how an error sets a bit and how software clears one (R23 to R29, R33, R125). -/

namespace Sys2Proof.Machine

/-- A one-bit field `x` at bit `k` of a word: `x << k` (R29, R33). -/
def fieldAt (x : Bool) (k : Nat) : Word := (BitVec.ofBool x).setWidth 32 <<< k

/-- An error's code, its bit number in STATUS (R117). -/
def Err.code : Err → Nat
  | .cfg => 3
  | .cmd => 4
  | .busy => 5
  | .acc => 6

/-- The sticky bit of an error (R16, R23). -/
def Block.errBit (b : Block) : Err → Bool
  | .cfg => b.cfgErr
  | .cmd => b.cmdErr
  | .busy => b.busyErr
  | .acc => b.accErr

/-- What a read of STATUS returns (R29). -/
def Block.statusWord (b : Block) : Word :=
  fieldAt b.accErr 6 ||| fieldAt b.busyErr 5 ||| fieldAt b.cmdErr 4 ||| fieldAt b.cfgErr 3
    ||| fieldAt b.done 2 ||| fieldAt b.valid 1 ||| fieldAt b.busy 0

/-- What a read of FLAGS returns: `(REFOUT << 1) OR REFIN` (R33). -/
def Block.flagsWord (b : Block) : Word := fieldAt b.refout 1 ||| fieldAt b.refin 0

/-- `raise E`: set the sticky bit of `E` and nothing else (R125, R27). This is the whole of CRCTG's error entry: nothing is
saved and control goes nowhere (R124). -/
def Block.raise (b : Block) (e : Err) : Block :=
  { b with
    cfgErr := b.cfgErr || decide (e = .cfg)
    cmdErr := b.cmdErr || decide (e = .cmd)
    busyErr := b.busyErr || decide (e = .busy)
    accErr := b.accErr || decide (e = .acc) }

/-- A write of `v` to STATUS: each of bits 2 to 6 that is 1 in `v` is cleared, all other bits of `v` are ignored (R28). It is
the only return from an error (R125). -/
def Block.clearOnes (b : Block) (v : Word) : Block :=
  { b with
    done := b.done && !v.getLsbD 2
    cfgErr := b.cfgErr && !v.getLsbD 3
    cmdErr := b.cmdErr && !v.getLsbD 4
    busyErr := b.busyErr && !v.getLsbD 5
    accErr := b.accErr && !v.getLsbD 6 }

end Sys2Proof.Machine
end

