-- ==== Sys2Proof/Machine/Ops.lean ====
section
/-! DEFINITION. The named operations over CRCTG's registers, table RAM and pending command. -/

namespace Sys2Proof.Machine

/-- Acceptance of a legal command: it becomes pending, DONE is cleared and, for GENERATE only, VALID is cleared (R80, R82). -/
def Block.accept (b : Block) (i : Instr) : Block :=
  { b with
    pend := some i
    done := false
    valid := if i = .generate then false else b.valid }

/-- The part every completion has: nothing is pending any more and DONE is set (R84). -/
def Block.finish (b : Block) : Block := { b with pend := none, done := true }

/-- RESULT takes a value (R36: only REFLECT, MASK and BYTEREM do this). -/
def Block.storeResult (b : Block) (v : Word) : Block := { b with result := v }

/-- Every entry of the table RAM takes its value `f i` and the table becomes valid (R109). -/
def Block.storeTable (b : Block) (f : BitVec 8 → Word) : Block :=
  { b with table := Vector.ofFn fun i => f (BitVec.ofFin i), valid := true }

/-- The default model is loaded; the table is no longer the current model's (R113). -/
def Block.loadDefault (b : Block) : Block :=
  { b with width := Config.defaultWidth, poly := Config.defaultPoly, refin := false, valid := false }

/-- A write of WIDTH: stored and VALID cleared when in [8, 32], otherwise CFG_ERR (R31). -/
def Block.writeWidth (b : Block) (v : Word) : Block :=
  if 8 ≤ v.toNat ∧ v.toNat ≤ 32 then { b with width := v.setWidth 6, valid := false } else b.raise .cfg

/-- A write of POLY (R32). -/
def Block.writePoly (b : Block) (v : Word) : Block := { b with poly := v, valid := false }

/-- A write of FLAGS: bits 31..2 of `v` are ignored (R33). -/
def Block.writeFlags (b : Block) (v : Word) : Block :=
  { b with refin := v.getLsbD 0, refout := v.getLsbD 1, valid := false }

/-- CRCTG after a reset step: R44's values, whatever was pending discarded, and the table RAM a free value (R135, R136). -/
def Block.afterReset (draw : Nat) : Block :=
  { Block.reset with table := Vector.ofFn fun i => Config.tableAfterReset draw i.val }

/-- The engine's completion step with the effect `effect` of one command: the effect, then R84's common part. -/
def complete (effect : Block → Block) (s : State) : Host.Outcome State Fault Refusal :=
  .next { s with block := (effect s.block).finish }

/-- The reset step, one atomic step (R134, R135). The last bus response stays as the host has it. -/
def State.resetStep (s : State) : State :=
  { s with block := Block.afterReset s.draws, draws := s.draws + 1 }

end Sys2Proof.Machine
end

