-- ==== Sys2Proof/Machine/Lifecycle.lean ====
section
/-! DEFINITION. The issue of a command word, and NOP (40_command_lifecycle.md). -/

namespace Sys2Proof.Machine

/-- `Issue(v)`, performed by a write of CMD while nothing is pending: an illegal word raises CMD_ERR and is dropped, a legal
one is accepted (R80, R81, R82). -/
def Block.issue (b : Block) (v : Word) : Block :=
  match decode v with
  | .illegal _ => b.raise .cmd
  | .command i => b.accept i

/-- NOP's completion: the common part and nothing else (R87). -/
def execNop (s : State) : Host.Outcome State Fault Refusal :=
  complete (fun b => b) s

end Sys2Proof.Machine
end

