-- ==== Sys2Proof/Machine/Bus.lean ====
section
/-! DEFINITION. The bus port: address window, register map, `MemRead` and `MemWrite` (20_memory.md, R17 10_state.md). -/

namespace Sys2Proof.Machine

/-- The locations of the register map R17. -/
inductive Reg where
  | cmd
  | status
  | width
  | poly
  | flags
  | init
  | xorout
  | operand
  | result
  | table (i : BitVec 8)
  deriving DecidableEq, Repr

/-- A location's byte offset in the window (R17). -/
def Reg.offset : Reg → BitVec 11
  | .cmd => 0x000
  | .status => 0x004
  | .width => 0x008
  | .poly => 0x00C
  | .flags => 0x010
  | .init => 0x014
  | .xorout => 0x018
  | .operand => 0x01C
  | .result => 0x020
  | .table i => 0x400#11 + (i.setWidth 11 <<< 2)

/-- The platform address of an offset (R45). -/
def addrOf (off : BitVec 11) : Nat := Config.crctgBase + off.toNat

/-- `off = addr - CRCTG_BASE` where the address lies in the window; an address outside it does not reach CRCTG (R45, R47). -/
def windowOffset (addr : Nat) : Option (BitVec 11) :=
  if Config.crctgBase ≤ addr ∧ addr < Config.crctgBase + Config.windowBytes then
    some (BitVec.ofNat 11 (addr - Config.crctgBase))
  else none

/-- `mapped(off)`: [0x000, 0x020] or [0x400, 0x7FC] (R47). -/
def mapped (off : BitVec 11) : Bool :=
  decide (off.toNat ≤ 0x020) || (decide (0x400 ≤ off.toNat) && decide (off.toNat ≤ 0x7FC))

/-- The location an aligned mapped offset names, by the cases of R53 and R54. -/
def Reg.ofOffset (off : BitVec 11) : Option Reg :=
  if off = 0x000#11 then some .cmd
  else if off = 0x004#11 then some .status
  else if off = 0x008#11 then some .width
  else if off = 0x00C#11 then some .poly
  else if off = 0x010#11 then some .flags
  else if off = 0x014#11 then some .init
  else if off = 0x018#11 then some .xorout
  else if off = 0x01C#11 then some .operand
  else if off = 0x020#11 then some .result
  else if 0x400 ≤ off.toNat then some (.table (((off - 0x400#11) >>> 2).setWidth 8))
  else none

/-- The location an access reaches, or none for BusError: the three checks of R50 in their order, then the map. -/
def served (size : Size) (off : BitVec 11) : Option Reg :=
  if size ≠ .word then none
  else if off.extractLsb' 0 2 ≠ 0#2 then none
  else if mapped off = false then none
  else Reg.ofOffset off

/-- What a read of a location returns (R53). -/
def Block.readValue (b : Block) : Reg → Word
  | .cmd => 0
  | .status => b.statusWord
  | .width => zext32 b.width
  | .poly => b.poly
  | .flags => b.flagsWord
  | .init => b.init
  | .xorout => b.xorout
  | .operand => b.operand
  | .result => b.result
  | .table i => if b.valid then b.entry i else 0

/-- What a read of a location changes: nothing, but for ACC_ERR on a table read while VALID = 0 (R38, R52, R53). -/
def Block.afterRead (b : Block) : Reg → Block
  | .table _ => if b.valid then b else b.raise .acc
  | .cmd | .status | .width | .poly | .flags | .init | .xorout | .operand | .result => b

/-- A write that passed the busy check, by the last case of R54. STATUS, RESULT and TABLE never come here. -/
def Block.writeIdle (b : Block) (v : Word) : Reg → Block
  | .cmd => b.issue v
  | .width => b.writeWidth v
  | .poly => b.writePoly v
  | .flags => b.writeFlags v
  | .init => { b with init := v }
  | .xorout => { b with xorout := v }
  | .operand => { b with operand := v }
  | .status | .result | .table _ => b

/-- A write of a location, with the checks of R54 in their normative order. -/
def Block.write (b : Block) (r : Reg) (v : Word) : Block :=
  match r with
  | .status => b.clearOnes v
  | .result | .table _ => b.raise .acc
  | .cmd | .width | .poly | .flags | .init | .xorout | .operand =>
    if b.busy then b.raise .busy else b.writeIdle v r

/-- A read that arrived at CRCTG's port, at an offset (R53). -/
def portRead (off : BitVec 11) (size : Size) (b : Block) : Response × Block :=
  match served size off with
  | none => (.busError, b)
  | some r => (.data (b.readValue r), b.afterRead r)

/-- A write that arrived at CRCTG's port, at an offset (R54). -/
def portWrite (off : BitVec 11) (size : Size) (v : Word) (b : Block) : Response × Block :=
  match served size off with
  | none => (.busError, b)
  | some r => (.ok, b.write r v)

/-- `MemRead(addr, n)` (R53); none where the address does not reach CRCTG (R47; log 13). -/
def memRead (addr : Nat) (size : Size) (b : Block) : Option Response × Block :=
  match windowOffset addr with
  | none => (none, b)
  | some off => (some (portRead off size b).1, (portRead off size b).2)

/-- `MemWrite(addr, n, v)` (R54); none where the address does not reach CRCTG (R47; log 13). -/
def memWrite (addr : Nat) (size : Size) (v : Word) (b : Block) : Option Response × Block :=
  match windowOffset addr with
  | none => (none, b)
  | some off => (some (portWrite off size v b).1, (portWrite off size v b).2)

/-- One host access, whichever it is. -/
def Access.perform (a : Access) (b : Block) : Option Response × Block :=
  match a with
  | .read addr size => memRead addr size b
  | .write addr size v => memWrite addr size v b

/-- A host step: one access, performed whole (R51, R55). -/
def State.hostStep (s : State) (a : Access) : State :=
  { s with block := (a.perform s.block).2, response := (a.perform s.block).1 }

/-- The aligned 32-bit write of a location: `wr REG, v` (R75). -/
def Reg.writeAccess (r : Reg) (v : Word) : Access := .write (addrOf r.offset) .word v

/-- The aligned 32-bit read of a location: `rd REG` (R75). -/
def Reg.readAccess (r : Reg) : Access := .read (addrOf r.offset) .word

/-- What CRCTG answers to `rd REG` (R53, R75). -/
def Block.readAnswer (b : Block) (r : Reg) : Option Response := (r.readAccess.perform b).1

end Sys2Proof.Machine
end

