-- ==== Sys2Proof/Machine/Reflector.lean ====
section
/-! DEFINITION. The bit reflector and REFLECT (41_reflect.md). -/

namespace Sys2Proof.Machine

/-- Iteration `i` of R89's loop, on the pair (`res`, `c`): the lowest bit of the shifting copy sets or clears position
`bc - 1 - i` of the result, and the copy shifts right by one. -/
def reflectRound (bc : Nat) (st : Word × Word) (i : Nat) : Word × Word :=
  let p := bc - 1 - i
  let bit : Word := 1#32 <<< p
  (if st.2.getLsbD 0 then st.1 ||| bit else st.1 &&& ~~~bit, st.2 >>> 1)

/-- `reflect(value, bc)`: the low `bc` bits reversed, the bits above passed through (R89). The spec gives it for `bc` in
[0, 32]; no command applies it elsewhere (R93; log 19). -/
def reflect (value : Word) (bc : Nat) : Word :=
  ((List.range bc).foldl (reflectRound bc) (value, value)).1

/-- REFLECT's completion: `RESULT <- reflect(OPERAND, BC)` (R92). -/
def execReflect (bc : BitVec 6) (s : State) : Host.Outcome State Fault Refusal :=
  complete (fun b => b.storeResult (reflect b.operand (bitCount bc))) s

end Sys2Proof.Machine
end

