-- ==== Sys2Proof/Machine/WidthMask.lean ====
section
/-! DEFINITION. The width mask helper and MASK (42_width_mask.md). -/

namespace Sys2Proof.Machine

/-- `widthMask(w)` in the source's formulation, so that no shift is by the full register width (R96, R97). The spec gives it
for `w` in [1, 32] (log 19). -/
def widthMask (w : Nat) : Word :=
  let a : Word := 1#32 <<< (w - 1)
  let b : Word := a - 1
  (b <<< 1) ||| 1#32

/-- MASK's completion: `RESULT <- widthMask(WIDTH)` (R98). -/
def execMask (s : State) : Host.Outcome State Fault Refusal :=
  complete (fun b => b.storeResult (widthMask b.widthArg)) s

end Sys2Proof.Machine
end

