-- ==== Sys2Proof/Machine/TableGenerator.lean ====
section
/-! DEFINITION. The table generator: the per-byte remainder, BYTEREM, GENERATE and LDDEF (43_table_generator.md). -/

namespace Sys2Proof.Machine

/-- One of the 8 rounds of step 3: shift, and subtract the polynomial when the top bit, bit `w-1`, was set (R102). -/
def divRound (w : Nat) (poly dr : Word) : Word :=
  if dr.getLsbD (w - 1) then (dr <<< 1) ^^^ poly else dr <<< 1

/-- `n` rounds on the division register, which is not masked between them (R102, R103). -/
def divRounds (w : Nat) (poly : Word) : Nat → Word → Word
  | 0, dr => dr
  | n + 1, dr => divRounds w poly n (divRound w poly dr)

/-- `byteRemainder(w, poly, ri, idx)`, the source's five steps over the 32-bit division register (R102). Both reflections
are gated by the one flag `ri` (R105). -/
def byteRemainder (w : Nat) (poly : Word) (ri : Bool) (idx : BitVec 8) : Word :=
  let inByte := if ri then reflect (zext32 idx) 8 else zext32 idx
  let dr := divRounds w poly 8 (inByte <<< (w - 8))
  let dr := if ri then reflect dr w else dr
  dr &&& widthMask w

/-- A round of R103's second formulation, in which the register is masked to `w` bits after every round. -/
def maskedRound (w : Nat) (poly r : Word) : Word :=
  ((r <<< 1) ^^^ (if r.getLsbD (w - 1) then poly else 0)) &&& widthMask w

/-- `n` masked rounds. -/
def maskedRounds (w : Nat) (poly : Word) : Nat → Word → Word
  | 0, r => r
  | n + 1, r => maskedRounds w poly n (maskedRound w poly r)

/-- R103's second formulation of the remainder. No command uses it: it is there to be proved equal to `byteRemainder`. -/
def byteRemainderMasked (w : Nat) (poly : Word) (ri : Bool) (idx : BitVec 8) : Word :=
  let b := if ri then reflect (zext32 idx) 8 else zext32 idx
  let r8 := maskedRounds w poly 8 ((b <<< (w - 8)) &&& widthMask w)
  (if ri then reflect r8 w else r8) &&& widthMask w

/-- The remainder of byte `idx` under the current model registers WIDTH, POLY and FLAGS.REFIN (R101). -/
def Block.remainder (b : Block) (idx : BitVec 8) : Word :=
  byteRemainder b.widthArg b.poly b.refin idx

/-- BYTEREM's completion: `RESULT <- byteRemainder(WIDTH, POLY, REFIN, IDX)` (R107). -/
def execByterem (idx : BitVec 8) (s : State) : Host.Outcome State Fault Refusal :=
  complete (fun b => b.storeResult (b.remainder idx)) s

/-- GENERATE's completion: every table entry, then VALID (R108, R109). Its acceptance clears VALID in `Block.accept`. -/
def execGenerate (s : State) : Host.Outcome State Fault Refusal :=
  complete (fun b => b.storeTable b.remainder) s

/-- LDDEF's completion: the default model's three registers, and VALID cleared (R113). -/
def execLddef (s : State) : Host.Outcome State Fault Refusal :=
  complete (fun b => b.loadDefault) s

end Sys2Proof.Machine
end

