-- ==== Sys2Proof/Machine/Dispatch.lean ====
section
/-! DEFINITION. The meaning of each command: its completion, the engine step `complete` of R84 (40_command_lifecycle.md). -/

namespace Sys2Proof.Machine

def exec (i : Instr) (s : State) : Host.Outcome State Fault Refusal :=
  match i with
  | .nop => Sys2Proof.Machine.execNop s
  | .reflect bc => Sys2Proof.Machine.execReflect bc s
  | .mask => Sys2Proof.Machine.execMask s
  | .byterem idx => Sys2Proof.Machine.execByterem idx s
  | .generate => Sys2Proof.Machine.execGenerate s
  | .lddef => Sys2Proof.Machine.execLddef s

end Sys2Proof.Machine
end

