-- ==== Sys2Proof/Machine/Step.lean ====
section
/-! DEFINITION. One step of the machine: the next event of the agenda (R14 00_scope.md, R56 20_memory.md). -/

namespace Sys2Proof.Machine

/-- The engine's step: it completes the pending command, and is enabled exactly when there is one (R84). -/
def engineStep (s : State) : Host.Outcome State Fault Refusal :=
  match s.block.pend with
  | none => .fault .engineNotEnabled
  | some i => exec i s

/-- One step. The next event of the agenda happens: a host access, an engine step or a reset. When no event is left, a
pending command completes, as R85 asks of the engine once the other agents take no more steps; with nothing pending nothing
happens (R14: no other event changes CRCTG's state; logs 4, 5). -/
def step (s : State) : Host.Outcome State Fault Refusal :=
  match s.agenda with
  | .host a :: rest => .next ({ s with agenda := rest }.hostStep a)
  | .engine :: rest => engineStep { s with agenda := rest }
  | .reset :: rest => .next { s with agenda := rest }.resetStep
  | [] => if s.block.busy then engineStep s else .next s

/-- `s` with the command word `w` where the next step runs it. CRCTG fetches nothing (R20): a command runs when the engine
completes it, so a legal word is put in as an accepted command with the engine's step next; an illegal word never becomes
pending (R81), so its issue is the next step (log 10). -/
def State.withFetchWord (s : State) (nbits w : Nat) : State :=
  match decodeTableWord nbits w with
  | some i =>
    { s with
      block := s.block.accept i
      agenda := match s.agenda with
        | [] => []
        | e :: rest => .engine :: e :: rest }
  | none => { s with agenda := .host (Reg.cmd.writeAccess (BitVec.ofNat 32 (w % 2 ^ nbits))) :: s.agenda }

end Sys2Proof.Machine
end

