-- ==== Sys2Proof/Machine/HostNotation.lean ====
section
/-! DEFINITION. The host-side notation for programs (R75 to R77 30_encoding.md). It is the host's, not CRCTG's: h0 to h7 and
the place in the program are no part of `State` (log 20). -/

namespace Sys2Proof.Machine

/-- The target of a `wr` or `rd` line: a register by name or a raw offset `@off` (R75). -/
inductive Target where
  | reg (r : Reg)
  | raw (off : BitVec 11)
  deriving DecidableEq, Repr

/-- A line of a program (R75). A label is a number. -/
inductive Line where
  | wr (t : Target) (imm : Word)
  | rd (t : Target) (h : Fin 8)
  | bset (h : Fin 8) (bit : Fin 32) (label : Nat)
  | bclr (h : Fin 8) (bit : Fin 32) (label : Nat)
  | label (name : Nat)
  | halt
  deriving DecidableEq, Repr

/-- A mnemonic line, with the operand as the programmer wrote it (R76). -/
inductive Mnemonic where
  | nop
  | reflect (bc : Nat)
  | mask
  | byterem (idx : Nat)
  | generate
  | lddef
  deriving DecidableEq, Repr

/-- The `wr CMD` line a mnemonic line stands for; none where the assembler refuses it (R76). -/
def Mnemonic.expand : Mnemonic → Option Line
  | .nop => some (.wr (.reg .cmd) 0x00000000)
  | .reflect bc =>
    if bc ≤ 32 then some (.wr (.reg .cmd) ((BitVec.ofNat 32 bc <<< 16) ||| 0x00000001)) else none
  | .mask => some (.wr (.reg .cmd) 0x00000002)
  | .byterem idx =>
    if idx ≤ 255 then some (.wr (.reg .cmd) ((BitVec.ofNat 32 idx <<< 8) ||| 0x00000003)) else none
  | .generate => some (.wr (.reg .cmd) 0x00000004)
  | .lddef => some (.wr (.reg .cmd) 0x00000005)

/-- `wait hN` with the fresh label `l` (R77). -/
def waitLines (h : Fin 8) (l : Nat) : List Line :=
  [.label l, .rd (.reg .status) h, .bset h 0 l]

/-- The host while it runs a program. -/
structure HostRun where
  program : List Line
  /-- The index of the next line. -/
  lineNo : Nat
  /-- h0 to h7 (R75). -/
  regs : Vector Word 8
  /-- How many bus errors were noted (R75). -/
  busErrors : Nat
  halted : Bool
  deriving DecidableEq, Repr

/-- The platform address a target stands for (R75). -/
def Target.addr : Target → Nat
  | .reg r => addrOf r.offset
  | .raw off => addrOf off

/-- The bus access a line makes; none for the host's own lines (R75). -/
def Line.access : Line → Option Access
  | .wr t imm => some (.write t.addr .word imm)
  | .rd t _ => some (.read t.addr .word)
  | .bset _ _ _ | .bclr _ _ _ | .label _ | .halt => none

/-- Go to a label; a program without that label ends there (log 20). -/
def HostRun.goto (r : HostRun) (l : Nat) : HostRun :=
  match r.program.findIdx? (· == Line.label l) with
  | some k => { r with lineNo := k }
  | none => { r with halted := true }

/-- Go to the next line. -/
def HostRun.advance (r : HostRun) : HostRun := { r with lineNo := r.lineNo + 1 }

/-- The host after a line, given CRCTG's answer to the line's access: a read's data reaches its register, a bus error leaves
the register unchanged and is noted (R75). -/
def HostRun.after (r : HostRun) (line : Line) (answer : Option Response) : HostRun :=
  match line with
  | .wr _ _ =>
    match answer with
    | some .busError => { r.advance with busErrors := r.busErrors + 1 }
    | some (.data _) | some .ok | none => r.advance
  | .rd _ h =>
    match answer with
    | some (.data v) => { r.advance with regs := r.regs.set h v }
    | some .busError => { r.advance with busErrors := r.busErrors + 1 }
    | some .ok | none => r.advance
  | .bset h bit l => if r.regs[h].getLsbD bit then r.goto l else r.advance
  | .bclr h bit l => if r.regs[h].getLsbD bit then r.advance else r.goto l
  | .label _ => r.advance
  | .halt => { r with halted := true }

/-- One line of the host's program against CRCTG: its access, if it makes one, is a host step. The end of the program ends
the run (log 20). -/
def HostRun.line (r : HostRun) (s : State) : HostRun × State :=
  if r.halted then (r, s)
  else
    match r.program[r.lineNo]? with
    | none => ({ r with halted := true }, s)
    | some line =>
      match line.access with
      | none => (r.after line none, s)
      | some a => (r.after line (s.hostStep a).response, s.hostStep a)

end Sys2Proof.Machine
end

