-- ==== Sys2Proof/Safety.lean ====
section
/-! DEFINITION. The predicates statements are made with: legal states, the table invariant, errors, and states a host cannot
tell apart. -/

namespace Sys2Proof.Machine

/-- WIDTH holds an integer in [8, 32] (R30). -/
def Block.WidthLegal (b : Block) : Prop := 8 ≤ b.width.toNat ∧ b.width.toNat ≤ 32

/-- The table RAM holds the table of the current model whenever VALID = 1 (R110). -/
def Block.TableCurrent (b : Block) : Prop :=
  b.valid = true → ∀ i : BitVec 8, b.entry i = byteRemainder b.width.toNat b.poly b.refin i

/-- A pending command is a legal one, DONE is clear while it is pending, and VALID is clear while a GENERATE is pending
(R41, R82, R26, R59). -/
def Block.PendLegal (b : Block) : Prop :=
  ∀ i, b.pend = some i → i.wellFormed = true ∧ b.done = false ∧ (i = .generate → b.valid = false)

/-- The states that histories of CRCTG stay in. -/
structure Block.Legal (b : Block) : Prop where
  width : b.WidthLegal
  table : b.TableCurrent
  pend : b.PendLegal

/-- No error bit is set. -/
def Block.errorFree (b : Block) : Bool := !(b.cfgErr || b.cmdErr || b.busyErr || b.accErr)

/-- Equal but for the table RAM, which may differ while VALID = 0. -/
def Block.SameButHiddenTable (a b : Block) : Prop :=
  { a with table := b.table } = b ∧ (a.valid = true → a.table = b.table)

/-- Two machines whose CRCTGs differ at most in a hidden table, with the same events to come. -/
def State.SameButHiddenTable (s t : State) : Prop :=
  s.block.SameButHiddenTable t.block ∧ s.agenda = t.agenda ∧ s.response = t.response ∧ s.draws = t.draws

/-- Equal but for the inert registers INIT, XOROUT and FLAGS.REFOUT (R39). -/
def Block.SameButInert (a b : Block) : Prop :=
  { a with init := b.init, xorout := b.xorout, refout := b.refout } = b

/-- The event a step takes is a host write of `v` to location `r`. -/
def State.NextWrites (s : State) (r : Reg) (v : Word) : Prop :=
  ∃ rest, s.agenda = .host (r.writeAccess v) :: rest

/-- The event a step takes is a host read of location `r`. -/
def State.NextReads (s : State) (r : Reg) : Prop :=
  ∃ rest, s.agenda = .host r.readAccess :: rest

/-- The event a step takes is a reset step. -/
def State.NextResets (s : State) : Prop := ∃ rest, s.agenda = .reset :: rest

/-- The event a step takes is the engine's completion of `i`: it has its turn, or no event is left. -/
def State.NextCompletes (s : State) (i : Instr) : Prop :=
  s.block.pend = some i ∧ (s.agenda = [] ∨ ∃ rest, s.agenda = .engine :: rest)

/-- The event a step takes is the issue of the legal command `i` while nothing is pending: its acceptance (R82). -/
def State.NextAccepts (s : State) (i : Instr) : Prop :=
  s.block.pend = none ∧ ∃ v, s.NextWrites .cmd v ∧ decode v = .command i

/-- The next step has the cause R117 gives for an error. -/
def State.NextCauses (s : State) : Err → Prop
  | .cfg => s.block.pend = none ∧ ∃ v, s.NextWrites .width v ∧ ¬(8 ≤ v.toNat ∧ v.toNat ≤ 32)
  | .cmd => s.block.pend = none ∧ ∃ v, s.NextWrites .cmd v ∧ ∀ i, decode v ≠ .command i
  | .busy =>
    s.block.pend ≠ none ∧
      ∃ r v, s.NextWrites r v ∧ r ∈ [Reg.cmd, .width, .poly, .flags, .init, .xorout, .operand]
  | .acc =>
    (∃ v, s.NextWrites .result v) ∨ (∃ i v, s.NextWrites (.table i) v)
      ∨ (s.block.valid = false ∧ ∃ i, s.NextReads (.table i))

end Sys2Proof.Machine
end

