-- ==== Sys2Proof/Certificates/Slice0/Obligations.lean ====
section
/-! DEFINITION. The statements about CRCTG that are to be proved. Each docstring names what of the spec it formalises. -/

open Sys2Proof Sys2Proof.Machine

/-! ### Encoding -/

/-- Every legal command, with every operand its encoding admits, is read back from its own word (R70, R76). -/
def Obligations.DecodeOfEncodeIsTheCommand : Prop :=
  ∀ i : Instr, i.wellFormed = true → decode (encode i) = .command i

/-- No word but its own encoding is read as a command, and only legal commands are read. -/
def Obligations.DecodedWordIsTheEncoding : Prop :=
  ∀ (v : Word) (i : Instr), decode v = .command i → i.wellFormed = true ∧ encode i = v

/-- R71: the six rows, as written there, are the words that decode, each to exactly one command. -/
def Obligations.LegalWordsNameExactlyOneCommand : Prop :=
  ∀ v : Word,
    (v = 0x00000000#32
      ∨ (v &&& 0xFFC0FFFF#32 = 0x00000001#32 ∧ (v.extractLsb' 16 6).toNat ≤ 32)
      ∨ v = 0x00000002#32
      ∨ v &&& 0xFFFF00FF#32 = 0x00000003#32
      ∨ v = 0x00000004#32
      ∨ v = 0x00000005#32)
    ↔ ∃! i, decode v = .command i

/-- Words written out by hand from the picture of R65 and the opcodes of R70. -/
def Obligations.WrittenOutWordsDecode : Prop :=
  decode 0x00000000 = .command .nop
    ∧ decode 0x00030001 = .command (.reflect 3)
    ∧ decode 0x00200001 = .command (.reflect 32)
    ∧ decode 0x00000002 = .command .mask
    ∧ decode 0x0000FF03 = .command (.byterem 255)
    ∧ decode 0x00000004 = .command .generate
    ∧ decode 0x00000005 = .command .lddef
    ∧ decode 0x00210001 = .illegal .bitCountAbove32
    ∧ decode 0x00000101 = .illegal .unusedFieldNonzero
    ∧ decode 0x00000006 = .illegal .reservedOpcode

/-- R76: each mnemonic line writes the word R76 gives to CMD, that word decodes to the command of the mnemonic, and the
assembler refuses the two operands out of range. -/
def Obligations.MnemonicLinesWriteTheirWords : Prop :=
  Mnemonic.nop.expand = some (.wr (.reg .cmd) 0x00000000)
    ∧ Mnemonic.mask.expand = some (.wr (.reg .cmd) 0x00000002)
    ∧ Mnemonic.generate.expand = some (.wr (.reg .cmd) 0x00000004)
    ∧ Mnemonic.lddef.expand = some (.wr (.reg .cmd) 0x00000005)
    ∧ (∀ bc : Nat, bc ≤ 32 →
        (Mnemonic.reflect bc).expand = some (.wr (.reg .cmd) (BitVec.ofNat 32 bc <<< 16 ||| 0x00000001)))
    ∧ (∀ bc : Nat, 32 < bc → (Mnemonic.reflect bc).expand = none)
    ∧ (∀ idx : Nat, idx ≤ 255 →
        (Mnemonic.byterem idx).expand = some (.wr (.reg .cmd) (BitVec.ofNat 32 idx <<< 8 ||| 0x00000003)))
    ∧ (∀ idx : Nat, 255 < idx → (Mnemonic.byterem idx).expand = none)
    ∧ (∀ (m : Mnemonic) (l : Line), m.expand = some l →
        ∃ v i, l = .wr (.reg .cmd) v ∧ decode v = .command i)

/-! ### Steps, issue and acceptance -/

/-- A command word issued while nothing is pending is accepted, and at the engine's turn the step is `exec` of the command it
decodes to, at the state acceptance left (the model's convention of where a command runs is log 10). -/
def Obligations.IssuedWordRunsAtTheEngineStep : Prop :=
  ∀ (s : State) (v : Word) (i : Instr) (rest : List Event),
    s.block.pend = none → decode v = .command i →
      step { s with agenda := .host (Reg.cmd.writeAccess v) :: .engine :: rest }
          = .next { s with block := s.block.accept i, response := some .ok, agenda := .engine :: rest }
        ∧ step { s with block := s.block.accept i, response := some .ok, agenda := .engine :: rest }
          = exec i { s with block := s.block.accept i, response := some .ok, agenda := rest }

/-- The step after `withFetchWord` is `exec` of the decoded command, accepted and with the rest of the agenda untouched
(the model's convention, log 10). -/
def Obligations.FetchedWordRunsNext : Prop :=
  ∀ (s : State) (nbits w : Nat) (i : Instr), decodeTableWord nbits w = some i →
    step (s.withFetchWord nbits w) = exec i { s with block := s.block.accept i }

/-- The engine's step is enabled exactly while a command is pending (R84): with its turn it runs `exec` of that command, with
nothing pending there is no such step (log 6), and with no other event left a pending command runs (log 4). -/
def Obligations.EngineStepRunsThePendingCommand : Prop :=
  (∀ (s : State) (i : Instr) (rest : List Event), s.block.pend = some i →
      step { s with agenda := .engine :: rest } = exec i { s with agenda := rest }
        ∧ step { s with agenda := [] } = exec i { s with agenda := [] })
    ∧ (∀ (s : State) (rest : List Event), s.block.pend = none →
      step { s with agenda := .engine :: rest } = .fault .engineNotEnabled)

/-- R82: acceptance sets PEND, so STATUS.BUSY reads 1, clears DONE, for GENERATE only clears VALID, and changes nothing else. -/
def Obligations.AcceptanceChangesOnlyPendDoneValid : Prop :=
  ∀ (s : State) (v : Word) (i : Instr) (rest : List Event),
    s.block.pend = none → decode v = .command i →
      ∃ b : Block,
        step { s with agenda := .host (Reg.cmd.writeAccess v) :: rest }
            = .next { s with block := b, response := some .ok, agenda := rest }
          ∧ b = { s.block with
                    pend := some i
                    done := false
                    valid := if i = .generate then false else s.block.valid }
          ∧ b.statusWord.getLsbD 0 = true

/-- R72, R81: exactly the words R72 lists are illegal; issued while nothing is pending such a word sets CMD_ERR and changes
nothing else, and every other word is accepted. -/
def Obligations.IllegalWordsOnlyRaiseCmdErr : Prop :=
  ∀ (s : State) (v : Word) (rest : List Event), s.block.pend = none →
    (((6 ≤ (opField v).toNat ∨ rsvField v ≠ 0 ∨ (opField v ≠ 0x03#8 ∧ idxField v ≠ 0)
          ∨ (opField v ≠ 0x01#8 ∧ bcField v ≠ 0) ∨ (opField v = 0x01#8 ∧ 33 ≤ (bcField v).toNat)) →
        step { s with agenda := .host (Reg.cmd.writeAccess v) :: rest }
          = .next { s with block := { s.block with cmdErr := true }, response := some .ok, agenda := rest })
      ∧ (¬(6 ≤ (opField v).toNat ∨ rsvField v ≠ 0 ∨ (opField v ≠ 0x03#8 ∧ idxField v ≠ 0)
          ∨ (opField v ≠ 0x01#8 ∧ bcField v ≠ 0) ∨ (opField v = 0x01#8 ∧ 33 ≤ (bcField v).toNat)) →
        ∃ i t, step { s with agenda := .host (Reg.cmd.writeAccess v) :: rest } = .next t
          ∧ t.block.pend = some i ∧ encode i = v))

/-- R141: while a command is pending a write of CMD, WIDTH, POLY, FLAGS, INIT, XOROUT or OPERAND is dropped with BUSY_ERR,
whatever its value, and a write of STATUS is accepted. -/
def Obligations.WritesWhileBusyAreDropped : Prop :=
  ∀ (s : State) (v : Word) (rest : List Event), s.block.pend ≠ none →
    (∀ r ∈ [Reg.cmd, .width, .poly, .flags, .init, .xorout, .operand],
        step { s with agenda := .host (r.writeAccess v) :: rest }
          = .next { s with block := { s.block with busyErr := true }, response := some .ok, agenda := rest })
      ∧ step { s with agenda := .host (Reg.status.writeAccess v) :: rest }
          = .next { s with block := s.block.clearOnes v, response := some .ok, agenda := rest }

/-! ### The completion of each command -/

/-- NOP completes in every state: PEND none and DONE set, and nothing else changes. -/
def Obligations.NopCompletes : Prop :=
  ∀ s : State,
    exec .nop s = .next { s with block := { s.block with pend := none, done := true } }

/-- REFLECT completes in every state: RESULT is OPERAND with its low BC bits reversed and the bits above unchanged, bit by bit
(R90), for every BC a legal word has (R68: at most 32), and nothing changes but RESULT, PEND and DONE. -/
def Obligations.ReflectCompletes : Prop :=
  ∀ (s : State) (bc : BitVec 6),
    ∃ r : Word,
      exec (.reflect bc) s = .next { s with block := { s.block with result := r, pend := none, done := true } }
        ∧ (bc.toNat ≤ 32 → ∀ j < 32, r.getLsbD j =
            if j < bc.toNat then s.block.operand.getLsbD (bc.toNat - 1 - j) else s.block.operand.getLsbD j)

/-- MASK completes in every state: RESULT is `2^WIDTH - 1` where WIDTH is legal, as R30 says it always is, and nothing changes
but RESULT, PEND and DONE. -/
def Obligations.MaskCompletes : Prop :=
  ∀ s : State,
    ∃ r : Word,
      exec .mask s = .next { s with block := { s.block with result := r, pend := none, done := true } }
        ∧ (s.block.WidthLegal → r.toNat = 2 ^ s.block.width.toNat - 1)

/-- BYTEREM completes in every state: where WIDTH is legal, as R30 says it always is, RESULT is the remainder of byte IDX under
WIDTH, POLY and REFIN, by R103's masked formulation, in [0, 2^WIDTH - 1]; nothing changes but RESULT, PEND and DONE. -/
def Obligations.ByteremCompletes : Prop :=
  ∀ (s : State) (idx : BitVec 8),
    ∃ r : Word,
      exec (.byterem idx) s = .next { s with block := { s.block with result := r, pend := none, done := true } }
        ∧ (s.block.WidthLegal →
            r = byteRemainderMasked s.block.width.toNat s.block.poly s.block.refin idx
              ∧ r.toNat < 2 ^ s.block.width.toNat)

/-- GENERATE completes in every state: every table entry is the remainder of its index, VALID, PEND and DONE are updated, and
nothing else changes (R108). -/
def Obligations.GenerateCompletes : Prop :=
  ∀ s : State,
    ∃ tab : Vector Word 256,
      exec .generate s
          = .next { s with block := { s.block with table := tab, valid := true, pend := none, done := true } }
        ∧ ∀ (i : Nat) (h : i < 256),
            tab[i] = byteRemainder s.block.width.toNat s.block.poly s.block.refin (BitVec.ofNat 8 i)

/-- LDDEF completes in every state: the default model's three registers, VALID cleared, PEND and DONE, and nothing else. -/
def Obligations.LddefCompletes : Prop :=
  ∀ s : State,
    exec .lddef s
      = .next { s with block := { s.block with
                  width := 16, poly := 0x00005935, refin := false, valid := false, pend := none, done := true } }

/-- R121: completion is total and sets no error bit; an error bit is only ever set in the step of a host access. -/
def Obligations.EngineRaisesNoError : Prop :=
  (∀ (i : Instr) (s : State), ∃ t, exec i s = .next t ∧ ∀ e, t.block.errBit e = s.block.errBit e)
    ∧ (∀ (s t : State) (e : Err), step s = .next t → s.block.errBit e = false → t.block.errBit e = true →
        ∃ a rest, s.agenda = .host a :: rest)

/-! ### Registers on the bus -/

/-- R29, R24: a read of STATUS returns the seven fields in their bits, BUSY being 1 exactly while a command is pending, and
has no side effect. -/
def Obligations.StatusReadsItsSevenFields : Prop :=
  ∀ (s : State) (rest : List Event),
    ∃ w : Word,
      step { s with agenda := .host Reg.status.readAccess :: rest }
          = .next { s with response := some (.data w), agenda := rest }
        ∧ w.getLsbD 0 = s.block.pend.isSome ∧ w.getLsbD 1 = s.block.valid ∧ w.getLsbD 2 = s.block.done
        ∧ w.getLsbD 3 = s.block.cfgErr ∧ w.getLsbD 4 = s.block.cmdErr ∧ w.getLsbD 5 = s.block.busyErr
        ∧ w.getLsbD 6 = s.block.accErr ∧ ∀ k, 7 ≤ k → w.getLsbD k = false

/-- R28: a write of STATUS, whatever BUSY is, clears each of bits 2 to 6 that is 1 in the value, raises no error, sets no bit
and changes nothing else. -/
def Obligations.StatusWriteClearsOnes : Prop :=
  ∀ (s : State) (v : Word) (rest : List Event),
    step { s with agenda := .host (Reg.status.writeAccess v) :: rest }
      = .next { s with
          block := { s.block with
            done := s.block.done && !v.getLsbD 2
            cfgErr := s.block.cfgErr && !v.getLsbD 3
            cmdErr := s.block.cmdErr && !v.getLsbD 4
            busyErr := s.block.busyErr && !v.getLsbD 5
            accErr := s.block.accErr && !v.getLsbD 6 }
          response := some .ok
          agenda := rest }

/-- R31: an idle write of WIDTH stores a value in [8, 32] and clears VALID; any other value raises CFG_ERR and leaves WIDTH and
VALID unchanged. -/
def Obligations.WidthWriteIsChecked : Prop :=
  ∀ (s : State) (v : Word) (rest : List Event), s.block.pend = none →
    ((8 ≤ v.toNat ∧ v.toNat ≤ 32) →
        ∃ w : BitVec 6, w.toNat = v.toNat ∧
          step { s with agenda := .host (Reg.width.writeAccess v) :: rest }
            = .next { s with block := { s.block with width := w, valid := false }, response := some .ok, agenda := rest })
      ∧ (¬(8 ≤ v.toNat ∧ v.toNat ≤ 32) →
          step { s with agenda := .host (Reg.width.writeAccess v) :: rest }
            = .next { s with block := { s.block with cfgErr := true }, response := some .ok, agenda := rest })

/-- Idle writes of POLY and FLAGS store all the bits the register has and clear VALID (R32, R33). -/
def Obligations.PolyAndFlagsWritesStoreAndInvalidate : Prop :=
  ∀ (s : State) (v : Word) (rest : List Event), s.block.pend = none →
    step { s with agenda := .host (Reg.poly.writeAccess v) :: rest }
        = .next { s with block := { s.block with poly := v, valid := false }, response := some .ok, agenda := rest }
      ∧ step { s with agenda := .host (Reg.flags.writeAccess v) :: rest }
        = .next { s with
            block := { s.block with refin := v.getLsbD 0, refout := v.getLsbD 1, valid := false }
            response := some .ok, agenda := rest }

/-- Idle writes of INIT, XOROUT and OPERAND store the value and change nothing else; VALID is kept (R34, R35). -/
def Obligations.InitXoroutOperandWritesStoreOnly : Prop :=
  ∀ (s : State) (v : Word) (rest : List Event), s.block.pend = none →
    step { s with agenda := .host (Reg.init.writeAccess v) :: rest }
        = .next { s with block := { s.block with init := v }, response := some .ok, agenda := rest }
      ∧ step { s with agenda := .host (Reg.xorout.writeAccess v) :: rest }
        = .next { s with block := { s.block with xorout := v }, response := some .ok, agenda := rest }
      ∧ step { s with agenda := .host (Reg.operand.writeAccess v) :: rest }
        = .next { s with block := { s.block with operand := v }, response := some .ok, agenda := rest }

/-- A register the host may write reads back what an idle write stored: all 32 bits, WIDTH where the write was legal, the two
low bits of FLAGS (R18, R30 to R35). -/
def Obligations.IdleWritesReadBack : Prop :=
  ∀ (s t : State) (v : Word) (r : Reg) (rest : List Event), s.block.pend = none →
    step { s with agenda := .host (r.writeAccess v) :: .host r.readAccess :: rest } = .next t →
      (r ∈ [Reg.poly, .init, .xorout, .operand] → ∃ u, step t = .next u ∧ u.response = some (.data v))
        ∧ (r = .width → 8 ≤ v.toNat → v.toNat ≤ 32 → ∃ u, step t = .next u ∧ u.response = some (.data v))
        ∧ (r = .flags → ∃ u, step t = .next u ∧ u.response = some (.data (v &&& 3)))

/-- Writes of RESULT and of a table entry are dropped with ACC_ERR, also while a command is pending. -/
def Obligations.ReadOnlyWritesRaiseAccErr : Prop :=
  ∀ (s : State) (v : Word) (rest : List Event) (r : Reg), (r = .result ∨ ∃ i, r = .table i) →
    step { s with agenda := .host (r.writeAccess v) :: rest }
      = .next { s with block := { s.block with accErr := true }, response := some .ok, agenda := rest }

/-- R38: a table read returns the entry while VALID = 1; while VALID = 0 it returns 0 and raises ACC_ERR (the 0 is the spec's
own value, D13, log 15); a table write is dropped with ACC_ERR. -/
def Obligations.TableWindowIsGuardedByValid : Prop :=
  ∀ (s : State) (i : BitVec 8) (v : Word) (rest : List Event),
    (s.block.valid = true →
        step { s with agenda := .host (Reg.table i).readAccess :: rest }
          = .next { s with response := some (.data (s.block.table[i.toNat]'i.isLt)), agenda := rest })
      ∧ (s.block.valid = false →
        step { s with agenda := .host (Reg.table i).readAccess :: rest }
          = .next { s with
              block := { s.block with accErr := true }, response := some (.data 0), agenda := rest })
      ∧ step { s with agenda := .host ((Reg.table i).writeAccess v) :: rest }
          = .next { s with block := { s.block with accErr := true }, response := some .ok, agenda := rest }
      ∧ (Reg.table i).offset.toNat = 0x400 + 4 * i.toNat

/-- A read of any location but a table entry returns its register, CMD reading 0, and changes nothing (R53). -/
def Obligations.RegisterReadsReturnTheirValue : Prop :=
  ∀ (s : State) (rest : List Event) (r : Reg) (w : Word),
    (r, w) ∈ [(Reg.cmd, 0), (.width, s.block.width.setWidth 32), (.poly, s.block.poly), (.init, s.block.init),
        (.xorout, s.block.xorout), (.operand, s.block.operand), (.result, s.block.result),
        (.flags, (BitVec.ofBool s.block.refout ++ BitVec.ofBool s.block.refin).setWidth 32)] →
      step { s with agenda := .host r.readAccess :: rest }
        = .next { s with response := some (.data w), agenda := rest }

/-- R50: an access of a size other than 4, misaligned, or at an unmapped offset returns BusError and changes no state; every
other access of the window is served. -/
def Obligations.UnservedAccessesReturnBusError : Prop :=
  ∀ (s : State) (off : BitVec 11) (size : Size) (a : Access) (rest : List Event),
    (a = .read (addrOf off) size ∨ ∃ v, a = .write (addrOf off) size v) →
      (¬(size = .word ∧ off.toNat % 4 = 0 ∧ (off.toNat ≤ 0x020 ∨ (0x400 ≤ off.toNat ∧ off.toNat ≤ 0x7FC))) →
          step { s with agenda := .host a :: rest }
            = .next { s with response := some .busError, agenda := rest })
        ∧ ((size = .word ∧ off.toNat % 4 = 0 ∧ (off.toNat ≤ 0x020 ∨ (0x400 ≤ off.toNat ∧ off.toNat ≤ 0x7FC))) →
          ∃ t, step { s with agenda := .host a :: rest } = .next t ∧ t.response ≠ some .busError ∧ t.response ≠ none)

/-- An address outside [CRCTG_BASE, CRCTG_BASE + 0x7FF] does not reach CRCTG: it changes nothing and CRCTG answers nothing
(R47; the model's form of it is log 13). -/
def Obligations.AddressesOutsideTheWindowDoNotReachIt : Prop :=
  ∀ (s : State) (addr : Nat) (size : Size) (v : Word) (rest : List Event),
    (addr < Config.crctgBase ∨ Config.crctgBase + 0x7FF < addr) →
      step { s with agenda := .host (.read addr size) :: rest } = .next { s with response := none, agenda := rest }
        ∧ step { s with agenda := .host (.write addr size v) :: rest }
          = .next { s with response := none, agenda := rest }

/-- R19: no two locations share an offset, each at R17's, and a served offset names exactly the location whose offset it is.
Each names a piece of state of its own: any answer of one location goes together with any answer of another, but that a table
entry is to be seen only where STATUS.VALID is 1 (R38). No write of one location changes a register or a table entry that
another location names; and a STATUS write changes no table read. -/
def Obligations.LocationsDoNotAlias : Prop :=
  [Reg.cmd, .status, .width, .poly, .flags, .init, .xorout, .operand, .result].map Reg.offset
      = [0x000, 0x004, 0x008, 0x00C, 0x010, 0x014, 0x018, 0x01C, 0x020]
    ∧ (∀ i : BitVec 8, (Reg.table i).offset.toNat = 0x400 + 4 * i.toNat)
    ∧ (∀ r r' : Reg, r.offset = r'.offset → r = r')
    ∧ (∀ (off : BitVec 11) (r : Reg), served .word off = some r ↔ off = r.offset)
    ∧ (∀ (a b : Block) (r r' : Reg), r ≠ r' → r' ≠ .status →
        (r = .status → (∃ i, r' = .table i) → a.valid = true) →
          ∃ c : Block, c.readAnswer r = a.readAnswer r ∧ c.readAnswer r' = b.readAnswer r')
    ∧ ∀ (s : State) (v : Word) (rest : List Event) (r : Reg),
        ∃ t : State, step { s with agenda := .host (r.writeAccess v) :: rest } = .next t
          ∧ (∀ r' ∈ [Reg.width, .poly, .flags, .init, .xorout, .operand, .result], r ≠ r' →
              t.block.readAnswer r' = s.block.readAnswer r')
          ∧ (∀ i, t.block.entry i = s.block.entry i)
          ∧ (r = .status → ∀ i, t.block.readAnswer (.table i) = s.block.readAnswer (.table i))

/-! ### Rules about every step -/

/-- R27: an error bit is 1 after a step exactly when the step had that error's cause (R117), or the bit was 1 and the step was
neither a reset nor a STATUS write with the bit set. -/
def Obligations.ErrorBitsAreStickyAndCaused : Prop :=
  ∀ (s t : State) (e : Err), step s = .next t →
    (t.block.errBit e = true ↔
      s.NextCauses e
        ∨ (s.block.errBit e = true ∧ ¬s.NextResets ∧ ∀ v, s.NextWrites .status v → v.getLsbD e.code = false))

/-- One access raises at most one error (R122). -/
def Obligations.OneAccessRaisesAtMostOneError : Prop :=
  ∀ (s t : State) (e e' : Err), step s = .next t →
    s.block.errBit e = false → t.block.errBit e = true →
    s.block.errBit e' = false → t.block.errBit e' = true → e = e'

/-- R25: VALID is 1 after a step exactly when the step completed a GENERATE, or VALID was 1 and the step was none of the
clearing events: acceptance of a GENERATE, an accepted write of WIDTH, POLY or FLAGS, completion of LDDEF, reset. -/
def Obligations.ValidChangesOnlyByItsEvents : Prop :=
  ∀ s t : State, step s = .next t →
    (t.block.valid = true ↔
      s.NextCompletes .generate
        ∨ (s.block.valid = true ∧ ¬s.NextAccepts .generate ∧ ¬s.NextCompletes .lddef ∧ ¬s.NextResets
          ∧ (s.block.pend = none → ∀ v,
              ¬s.NextWrites .poly v ∧ ¬s.NextWrites .flags v
                ∧ ¬(s.NextWrites .width v ∧ 8 ≤ v.toNat ∧ v.toNat ≤ 32))))

/-- R26: DONE is 1 after a step exactly when the step completed a command, or DONE was 1 and the step was no acceptance, no
STATUS write with bit 2 set and no reset. -/
def Obligations.DoneChangesOnlyByItsEvents : Prop :=
  ∀ s t : State, step s = .next t →
    (t.block.done = true ↔
      (∃ i, s.NextCompletes i)
        ∨ (s.block.done = true ∧ (∀ i, ¬s.NextAccepts i) ∧ ¬s.NextResets
          ∧ ∀ v, s.NextWrites .status v → v.getLsbD 2 = false))

/-- RESULT changes only by the completion of REFLECT, MASK or BYTEREM, and the table RAM only by that of GENERATE, reset apart
(R36, R37). -/
def Obligations.ResultAndTableHaveOneWriter : Prop :=
  ∀ s t : State, step s = .next t → ¬s.NextResets →
    (t.block.result ≠ s.block.result →
        (∃ bc, s.NextCompletes (.reflect bc)) ∨ s.NextCompletes .mask ∨ ∃ idx, s.NextCompletes (.byterem idx))
      ∧ (t.block.table ≠ s.block.table → s.NextCompletes .generate)

/-- R83: over any sequence of host accesses made while a command is pending, the six registers and the pending command stay
what they were, so a completion reads the values held at acceptance. -/
def Obligations.OperandsAreHeldWhilePending : Prop :=
  ∀ (accesses : List Access) (s : State) (rest : List Event), s.block.pend ≠ none →
    ∃ t : State,
      Sys2Proof.core.run accesses.length { s with agenda := accesses.map .host ++ rest } = .next t
        ∧ t.agenda = rest ∧ t.block.pend = s.block.pend ∧ t.block.width = s.block.width
        ∧ t.block.poly = s.block.poly ∧ t.block.refin = s.block.refin ∧ t.block.refout = s.block.refout
        ∧ t.block.init = s.block.init ∧ t.block.xorout = s.block.xorout ∧ t.block.operand = s.block.operand

/-- Every accepted command completes unless a reset comes first: with no reset to come, after no more steps than the agenda has
events, the next step is the engine's with that command still pending, and it completes: PEND is none and DONE is 1 after it (R85;
that an empty agenda leaves the engine its turn is log 4). -/
def Obligations.PendingCommandCompletes : Prop :=
  ∀ (s : State) (i : Instr), s.block.pend = some i → Event.reset ∉ s.agenda →
    ∃ k ≤ s.agenda.length, ∃ u t : State,
      Sys2Proof.core.run k s = .next u ∧ u.NextCompletes i
        ∧ step u = .next t ∧ t.block.pend = none ∧ t.block.done = true

/-- R109: a GENERATE issued while idle and completed after any host accesses leaves in every entry the remainder under the
registers' values at acceptance, masked to WIDTH; VALID is 0 at every step before and 1 with all entries written. That VALID is 0
throughout is GENERATE's acceptance (43_table_generator.md section 3) and the guarantee of 20_memory.md section 6. -/
def Obligations.GenerateFillsTheTableOfTheAcceptedModel : Prop :=
  ∀ (s : State) (accesses : List Access) (rest : List Event) (s0 : State), s.block.pend = none →
    s0 = { s with
        agenda := .host (Reg.cmd.writeAccess 0x00000004) :: (accesses.map .host ++ .engine :: rest) } →
      (∀ k, 1 ≤ k → k ≤ accesses.length + 1 →
          ∃ u : State, Sys2Proof.core.run k s0 = .next u ∧ u.block.valid = false)
        ∧ ∃ t : State, Sys2Proof.core.run (accesses.length + 2) s0 = .next t
          ∧ t.agenda = rest ∧ t.block.valid = true ∧ t.block.pend = none
          ∧ ∀ i : BitVec 8,
              t.block.entry i = byteRemainder s.block.width.toNat s.block.poly s.block.refin i
                ∧ (s.block.WidthLegal → ∀ j, s.block.width.toNat ≤ j → (t.block.entry i).getLsbD j = false)

/-! ### Invariants and reset -/

/-- R30: WIDTH always holds an integer in [8, 32]: every step keeps it so. -/
def Obligations.WidthStaysInRange : Prop :=
  ∀ s t : State, s.block.WidthLegal → step s = .next t → t.block.WidthLegal

/-- A pending command stays a legal one; DONE is 0 while it is pending and VALID is 0 while a GENERATE is: every step keeps
it so. -/
def Obligations.PendingCommandStaysLegal : Prop :=
  ∀ s t : State, s.block.PendLegal → step s = .next t → t.block.PendLegal

/-- R110: after reset, and after every step from a state where it holds, VALID = 1 implies that every entry is the remainder
of its index under the current WIDTH, POLY and REFIN. -/
def Obligations.ValidTableIsTheCurrentModels : Prop :=
  State.reset.block.TableCurrent
    ∧ ∀ s t : State, s.block.TableCurrent → step s = .next t → t.block.TableCurrent

/-- The reset state meets every part of the invariant. -/
def Obligations.ResetStateIsLegal : Prop := State.reset.block.Legal

/-- R44: the values after reset. The spec leaves the table unspecified, and the statement says nothing of it. -/
def Obligations.ResetStateHasTheSpecsValues : Prop :=
  State.reset.block.width = 16 ∧ State.reset.block.poly = 0x00005935 ∧ State.reset.block.refin = false
    ∧ State.reset.block.refout = false ∧ State.reset.block.init = 0 ∧ State.reset.block.xorout = 0
    ∧ State.reset.block.operand = 0 ∧ State.reset.block.result = 0 ∧ State.reset.block.statusWord = 0
    ∧ State.reset.block.pend = none

/-- R135: a reset step, from any state, sets every register and STATUS to its value and discards a pending command. The table
is unspecified, and the statement says nothing of it. -/
def Obligations.ResetStepSetsEveryRegister : Prop :=
  ∀ (s : State) (rest : List Event),
    ∃ t : State, step { s with agenda := .reset :: rest } = .next t
      ∧ t.agenda = rest ∧ t.block.width = 16 ∧ t.block.poly = 0x00005935 ∧ t.block.flagsWord = 0
      ∧ t.block.init = 0 ∧ t.block.xorout = 0 ∧ t.block.operand = 0 ∧ t.block.result = 0
      ∧ t.block.statusWord = 0 ∧ t.block.pend = none

/-! ### What cannot be observed -/

/-- The table RAM is unobservable while VALID = 0 (R136, R42): two machines that differ only in a table whose VALID is 0 answer
every access alike and stay so. -/
def Obligations.HiddenTableIsUnobservable : Prop :=
  ∀ s t : State, s.SameButHiddenTable t →
    (∀ s', step s = .next s' → ∃ t', step t = .next t' ∧ s'.SameButHiddenTable t')
      ∧ (∀ f, step s = .fault f → step t = .fault f)

/-- R39: INIT, XOROUT and FLAGS.REFOUT are inert: two machines that differ only there, and perhaps in the answer to an earlier
access, stay so at every step. Every access is answered alike but a read of those three registers, and a step that is no access
leaves equal answers equal. -/
def Obligations.InertRegistersAffectNothing : Prop :=
  ∀ s t s' : State, s.block.SameButInert t.block → s.agenda = t.agenda → s.draws = t.draws →
    step s = .next s' →
      ∃ t', step t = .next t' ∧ s'.block.SameButInert t'.block ∧ s'.agenda = t'.agenda ∧ s'.draws = t'.draws
        ∧ ((s.response = t.response ∨ ∃ a rest, s.agenda = .host a :: rest) →
            ¬s.NextReads .init → ¬s.NextReads .xorout → ¬s.NextReads .flags → s'.response = t'.response)

/-! ### The pure functions -/

/-- R90: `reflect`, bit by bit. -/
def Obligations.ReflectReversesTheLowBits : Prop :=
  ∀ (value : Word) (bc j : Nat), bc ≤ 32 → j < 32 →
    (reflect value bc).getLsbD j = if j < bc then value.getLsbD (bc - 1 - j) else value.getLsbD j

/-- R91: the source's properties of `reflect`. -/
def Obligations.ReflectIsSelfInverse : Prop :=
  ∀ (v : Word) (b : Nat), b ≤ 32 →
    reflect v 0 = v ∧ reflect (reflect v b) b = v ∧ reflect v 1 = v
      ∧ reflect v b &&& ~~~(BitVec.ofNat 32 (2 ^ b - 1)) = v &&& ~~~(BitVec.ofNat 32 (2 ^ b - 1))

/-- R97, R99: `widthMask(w)` is `2^w - 1`, its set bits are exactly the low `w`, and masking with it is `mod 2^w`. -/
def Obligations.WidthMaskIsTwoToTheWidthMinusOne : Prop :=
  ∀ w : Nat, 1 ≤ w → w ≤ 32 →
    (widthMask w).toNat = 2 ^ w - 1
      ∧ (∀ j < 32, (widthMask w).getLsbD j = decide (j < w))
      ∧ ∀ v : Word, (v &&& widthMask w).toNat = v.toNat % 2 ^ w

/-- The unmasked division register of R102 and the register masked every round of R103 give the same remainder. -/
def Obligations.RemainderFormulationsAgree : Prop :=
  ∀ (w : Nat) (poly : Word) (ri : Bool) (idx : BitVec 8), 8 ≤ w → w ≤ 32 →
    byteRemainder w poly ri idx = byteRemainderMasked w poly ri idx

/-- R104: the polynomial's bits at and above the width have no effect. -/
def Obligations.PolynomialBitsAboveWidthVanish : Prop :=
  ∀ (w : Nat) (poly : Word) (ri : Bool) (idx : BitVec 8), 8 ≤ w → w ≤ 32 →
    byteRemainder w poly ri idx = byteRemainder w (poly &&& widthMask w) ri idx

/-- R106: entry 0 is 0, every result is in [0, 2^w - 1], and a polynomial with no bit below the width gives only 0. -/
def Obligations.RemainderRangeAndZeros : Prop :=
  ∀ (w : Nat) (poly : Word) (ri : Bool) (idx : BitVec 8), 8 ≤ w → w ≤ 32 →
    byteRemainder w poly ri 0 = 0
      ∧ (byteRemainder w poly ri idx).toNat < 2 ^ w
      ∧ (poly &&& widthMask w = 0 → byteRemainder w poly ri idx = 0)

/-- The remainder is linear in the byte index (95_test_vectors.md section 2.5). -/
def Obligations.RemainderIsLinearInTheIndex : Prop :=
  ∀ (w : Nat) (poly : Word) (ri : Bool) (a b : BitVec 8), 8 ≤ w → w ≤ 32 →
    byteRemainder w poly ri (a ^^^ b) = byteRemainder w poly ri a ^^^ byteRemainder w poly ri b

/-- R111: two GENERATEs completed with equal WIDTH, REFIN and POLY below WIDTH write equal tables, whatever else differs. -/
def Obligations.EqualModelsGenerateEqualTables : Prop :=
  ∀ s s' t t' : State, s.block.WidthLegal → s.block.width = s'.block.width → s.block.refin = s'.block.refin →
    s.block.poly &&& widthMask s.block.width.toNat = s'.block.poly &&& widthMask s.block.width.toNat →
    exec .generate s = .next t → exec .generate s' = .next t' → t.block.table = t'.block.table

/-- The default model's entries 0 and 1, and the range of all of them (R112). -/
def Obligations.DefaultModelEntries : Prop :=
  byteRemainder 16 0x5935 false 0 = 0 ∧ byteRemainder 16 0x5935 false 1 = 0x5935
    ∧ ∀ i : BitVec 8, (byteRemainder 16 0x5935 false i).toNat ≤ 0xFFFF
end

