-- ==== Sys2Proof/Laws/Decode.lean ====
section
/-! SUPPORT. Small facts about the command word's fields. -/

namespace Sys2Proof

/-- The four fields of R65 make up the word. -/
theorem word_eq_fields (v : Word) :
    rsvField v ++ bcField v ++ idxField v ++ opField v = v := by
  apply BitVec.eq_of_getLsbD_eq
  intro k hk
  simp only [rsvField, bcField, idxField, opField, BitVec.getLsbD_append, BitVec.getLsbD_extractLsb']
  split
  · simp [*]
  · split
    · rename_i h1 h2
      have : k - 8 < 8 := h2
      simp [this]; congr 1; omega
    · split
      · rename_i h1 h2 h3
        have : k - 8 - 8 < 6 := h3
        simp [this]; congr 1; omega
      · rename_i h1 h2 h3
        have : k - 8 - 8 - 6 < 10 := by omega
        simp [this]; congr 1; omega

/-- A word decodes to a command only through a row whose unused fields are 0. -/
theorem whenUnusedZero_command {z : Bool} {i j : Instr} :
    whenUnusedZero z i = .command j ↔ z = true ∧ i = j := by
  cases z <;> simp [whenUnusedZero]

end Sys2Proof
end

