-- ==== Sys2Proof/Laws/State.lean ====
section
/-! SUPPORT. What every named update of a `Block` leaves in every field, and the values of the reset state. -/

namespace Sys2Proof.Machine

section Raise
variable (b : Block) (e : Err)
@[simp] theorem Block.raise_width : (b.raise e).width = b.width := rfl
@[simp] theorem Block.raise_poly : (b.raise e).poly = b.poly := rfl
@[simp] theorem Block.raise_refin : (b.raise e).refin = b.refin := rfl
@[simp] theorem Block.raise_refout : (b.raise e).refout = b.refout := rfl
@[simp] theorem Block.raise_init : (b.raise e).init = b.init := rfl
@[simp] theorem Block.raise_xorout : (b.raise e).xorout = b.xorout := rfl
@[simp] theorem Block.raise_operand : (b.raise e).operand = b.operand := rfl
@[simp] theorem Block.raise_result : (b.raise e).result = b.result := rfl
@[simp] theorem Block.raise_valid : (b.raise e).valid = b.valid := rfl
@[simp] theorem Block.raise_done : (b.raise e).done = b.done := rfl
@[simp] theorem Block.raise_cfgErr : (b.raise e).cfgErr = (b.cfgErr || decide (e = .cfg)) := rfl
@[simp] theorem Block.raise_cmdErr : (b.raise e).cmdErr = (b.cmdErr || decide (e = .cmd)) := rfl
@[simp] theorem Block.raise_busyErr : (b.raise e).busyErr = (b.busyErr || decide (e = .busy)) := rfl
@[simp] theorem Block.raise_accErr : (b.raise e).accErr = (b.accErr || decide (e = .acc)) := rfl
@[simp] theorem Block.raise_table : (b.raise e).table = b.table := rfl
@[simp] theorem Block.raise_pend : (b.raise e).pend = b.pend := rfl
end Raise

section ClearOnes
variable (b : Block) (v : Word)
@[simp] theorem Block.clearOnes_width : (b.clearOnes v).width = b.width := rfl
@[simp] theorem Block.clearOnes_poly : (b.clearOnes v).poly = b.poly := rfl
@[simp] theorem Block.clearOnes_refin : (b.clearOnes v).refin = b.refin := rfl
@[simp] theorem Block.clearOnes_refout : (b.clearOnes v).refout = b.refout := rfl
@[simp] theorem Block.clearOnes_init : (b.clearOnes v).init = b.init := rfl
@[simp] theorem Block.clearOnes_xorout : (b.clearOnes v).xorout = b.xorout := rfl
@[simp] theorem Block.clearOnes_operand : (b.clearOnes v).operand = b.operand := rfl
@[simp] theorem Block.clearOnes_result : (b.clearOnes v).result = b.result := rfl
@[simp] theorem Block.clearOnes_valid : (b.clearOnes v).valid = b.valid := rfl
@[simp] theorem Block.clearOnes_done : (b.clearOnes v).done = (b.done && !v.getLsbD 2) := rfl
@[simp] theorem Block.clearOnes_cfgErr : (b.clearOnes v).cfgErr = (b.cfgErr && !v.getLsbD 3) := rfl
@[simp] theorem Block.clearOnes_cmdErr : (b.clearOnes v).cmdErr = (b.cmdErr && !v.getLsbD 4) := rfl
@[simp] theorem Block.clearOnes_busyErr : (b.clearOnes v).busyErr = (b.busyErr && !v.getLsbD 5) := rfl
@[simp] theorem Block.clearOnes_accErr : (b.clearOnes v).accErr = (b.accErr && !v.getLsbD 6) := rfl
@[simp] theorem Block.clearOnes_table : (b.clearOnes v).table = b.table := rfl
@[simp] theorem Block.clearOnes_pend : (b.clearOnes v).pend = b.pend := rfl
end ClearOnes

section Accept
variable (b : Block) (i : Instr)
@[simp] theorem Block.accept_width : (b.accept i).width = b.width := rfl
@[simp] theorem Block.accept_poly : (b.accept i).poly = b.poly := rfl
@[simp] theorem Block.accept_refin : (b.accept i).refin = b.refin := rfl
@[simp] theorem Block.accept_refout : (b.accept i).refout = b.refout := rfl
@[simp] theorem Block.accept_init : (b.accept i).init = b.init := rfl
@[simp] theorem Block.accept_xorout : (b.accept i).xorout = b.xorout := rfl
@[simp] theorem Block.accept_operand : (b.accept i).operand = b.operand := rfl
@[simp] theorem Block.accept_result : (b.accept i).result = b.result := rfl
@[simp] theorem Block.accept_valid : (b.accept i).valid = if i = .generate then false else b.valid := rfl
@[simp] theorem Block.accept_done : (b.accept i).done = false := rfl
@[simp] theorem Block.accept_cfgErr : (b.accept i).cfgErr = b.cfgErr := rfl
@[simp] theorem Block.accept_cmdErr : (b.accept i).cmdErr = b.cmdErr := rfl
@[simp] theorem Block.accept_busyErr : (b.accept i).busyErr = b.busyErr := rfl
@[simp] theorem Block.accept_accErr : (b.accept i).accErr = b.accErr := rfl
@[simp] theorem Block.accept_table : (b.accept i).table = b.table := rfl
@[simp] theorem Block.accept_pend : (b.accept i).pend = some i := rfl
end Accept

section Finish
variable (b : Block)
@[simp] theorem Block.finish_width : (b.finish).width = b.width := rfl
@[simp] theorem Block.finish_poly : (b.finish).poly = b.poly := rfl
@[simp] theorem Block.finish_refin : (b.finish).refin = b.refin := rfl
@[simp] theorem Block.finish_refout : (b.finish).refout = b.refout := rfl
@[simp] theorem Block.finish_init : (b.finish).init = b.init := rfl
@[simp] theorem Block.finish_xorout : (b.finish).xorout = b.xorout := rfl
@[simp] theorem Block.finish_operand : (b.finish).operand = b.operand := rfl
@[simp] theorem Block.finish_result : (b.finish).result = b.result := rfl
@[simp] theorem Block.finish_valid : (b.finish).valid = b.valid := rfl
@[simp] theorem Block.finish_done : (b.finish).done = true := rfl
@[simp] theorem Block.finish_cfgErr : (b.finish).cfgErr = b.cfgErr := rfl
@[simp] theorem Block.finish_cmdErr : (b.finish).cmdErr = b.cmdErr := rfl
@[simp] theorem Block.finish_busyErr : (b.finish).busyErr = b.busyErr := rfl
@[simp] theorem Block.finish_accErr : (b.finish).accErr = b.accErr := rfl
@[simp] theorem Block.finish_table : (b.finish).table = b.table := rfl
@[simp] theorem Block.finish_pend : (b.finish).pend = none := rfl
end Finish

section StoreResult
variable (b : Block) (v : Word)
@[simp] theorem Block.storeResult_width : (b.storeResult v).width = b.width := rfl
@[simp] theorem Block.storeResult_poly : (b.storeResult v).poly = b.poly := rfl
@[simp] theorem Block.storeResult_refin : (b.storeResult v).refin = b.refin := rfl
@[simp] theorem Block.storeResult_refout : (b.storeResult v).refout = b.refout := rfl
@[simp] theorem Block.storeResult_init : (b.storeResult v).init = b.init := rfl
@[simp] theorem Block.storeResult_xorout : (b.storeResult v).xorout = b.xorout := rfl
@[simp] theorem Block.storeResult_operand : (b.storeResult v).operand = b.operand := rfl
@[simp] theorem Block.storeResult_result : (b.storeResult v).result = v := rfl
@[simp] theorem Block.storeResult_valid : (b.storeResult v).valid = b.valid := rfl
@[simp] theorem Block.storeResult_done : (b.storeResult v).done = b.done := rfl
@[simp] theorem Block.storeResult_cfgErr : (b.storeResult v).cfgErr = b.cfgErr := rfl
@[simp] theorem Block.storeResult_cmdErr : (b.storeResult v).cmdErr = b.cmdErr := rfl
@[simp] theorem Block.storeResult_busyErr : (b.storeResult v).busyErr = b.busyErr := rfl
@[simp] theorem Block.storeResult_accErr : (b.storeResult v).accErr = b.accErr := rfl
@[simp] theorem Block.storeResult_table : (b.storeResult v).table = b.table := rfl
@[simp] theorem Block.storeResult_pend : (b.storeResult v).pend = b.pend := rfl
end StoreResult

section StoreTable
variable (b : Block) (f : BitVec 8 → Word)
@[simp] theorem Block.storeTable_width : (b.storeTable f).width = b.width := rfl
@[simp] theorem Block.storeTable_poly : (b.storeTable f).poly = b.poly := rfl
@[simp] theorem Block.storeTable_refin : (b.storeTable f).refin = b.refin := rfl
@[simp] theorem Block.storeTable_refout : (b.storeTable f).refout = b.refout := rfl
@[simp] theorem Block.storeTable_init : (b.storeTable f).init = b.init := rfl
@[simp] theorem Block.storeTable_xorout : (b.storeTable f).xorout = b.xorout := rfl
@[simp] theorem Block.storeTable_operand : (b.storeTable f).operand = b.operand := rfl
@[simp] theorem Block.storeTable_result : (b.storeTable f).result = b.result := rfl
@[simp] theorem Block.storeTable_valid : (b.storeTable f).valid = true := rfl
@[simp] theorem Block.storeTable_done : (b.storeTable f).done = b.done := rfl
@[simp] theorem Block.storeTable_cfgErr : (b.storeTable f).cfgErr = b.cfgErr := rfl
@[simp] theorem Block.storeTable_cmdErr : (b.storeTable f).cmdErr = b.cmdErr := rfl
@[simp] theorem Block.storeTable_busyErr : (b.storeTable f).busyErr = b.busyErr := rfl
@[simp] theorem Block.storeTable_accErr : (b.storeTable f).accErr = b.accErr := rfl
@[simp] theorem Block.storeTable_table : (b.storeTable f).table = Vector.ofFn fun i => f (BitVec.ofFin i) := rfl
@[simp] theorem Block.storeTable_pend : (b.storeTable f).pend = b.pend := rfl
end StoreTable

section LoadDefault
variable (b : Block)
@[simp] theorem Block.loadDefault_width : (b.loadDefault).width = Config.defaultWidth := rfl
@[simp] theorem Block.loadDefault_poly : (b.loadDefault).poly = Config.defaultPoly := rfl
@[simp] theorem Block.loadDefault_refin : (b.loadDefault).refin = false := rfl
@[simp] theorem Block.loadDefault_refout : (b.loadDefault).refout = b.refout := rfl
@[simp] theorem Block.loadDefault_init : (b.loadDefault).init = b.init := rfl
@[simp] theorem Block.loadDefault_xorout : (b.loadDefault).xorout = b.xorout := rfl
@[simp] theorem Block.loadDefault_operand : (b.loadDefault).operand = b.operand := rfl
@[simp] theorem Block.loadDefault_result : (b.loadDefault).result = b.result := rfl
@[simp] theorem Block.loadDefault_valid : (b.loadDefault).valid = false := rfl
@[simp] theorem Block.loadDefault_done : (b.loadDefault).done = b.done := rfl
@[simp] theorem Block.loadDefault_cfgErr : (b.loadDefault).cfgErr = b.cfgErr := rfl
@[simp] theorem Block.loadDefault_cmdErr : (b.loadDefault).cmdErr = b.cmdErr := rfl
@[simp] theorem Block.loadDefault_busyErr : (b.loadDefault).busyErr = b.busyErr := rfl
@[simp] theorem Block.loadDefault_accErr : (b.loadDefault).accErr = b.accErr := rfl
@[simp] theorem Block.loadDefault_table : (b.loadDefault).table = b.table := rfl
@[simp] theorem Block.loadDefault_pend : (b.loadDefault).pend = b.pend := rfl
end LoadDefault

section WritePoly
variable (b : Block) (v : Word)
@[simp] theorem Block.writePoly_width : (b.writePoly v).width = b.width := rfl
@[simp] theorem Block.writePoly_poly : (b.writePoly v).poly = v := rfl
@[simp] theorem Block.writePoly_refin : (b.writePoly v).refin = b.refin := rfl
@[simp] theorem Block.writePoly_refout : (b.writePoly v).refout = b.refout := rfl
@[simp] theorem Block.writePoly_init : (b.writePoly v).init = b.init := rfl
@[simp] theorem Block.writePoly_xorout : (b.writePoly v).xorout = b.xorout := rfl
@[simp] theorem Block.writePoly_operand : (b.writePoly v).operand = b.operand := rfl
@[simp] theorem Block.writePoly_result : (b.writePoly v).result = b.result := rfl
@[simp] theorem Block.writePoly_valid : (b.writePoly v).valid = false := rfl
@[simp] theorem Block.writePoly_done : (b.writePoly v).done = b.done := rfl
@[simp] theorem Block.writePoly_cfgErr : (b.writePoly v).cfgErr = b.cfgErr := rfl
@[simp] theorem Block.writePoly_cmdErr : (b.writePoly v).cmdErr = b.cmdErr := rfl
@[simp] theorem Block.writePoly_busyErr : (b.writePoly v).busyErr = b.busyErr := rfl
@[simp] theorem Block.writePoly_accErr : (b.writePoly v).accErr = b.accErr := rfl
@[simp] theorem Block.writePoly_table : (b.writePoly v).table = b.table := rfl
@[simp] theorem Block.writePoly_pend : (b.writePoly v).pend = b.pend := rfl
end WritePoly

section WriteFlags
variable (b : Block) (v : Word)
@[simp] theorem Block.writeFlags_width : (b.writeFlags v).width = b.width := rfl
@[simp] theorem Block.writeFlags_poly : (b.writeFlags v).poly = b.poly := rfl
@[simp] theorem Block.writeFlags_refin : (b.writeFlags v).refin = v.getLsbD 0 := rfl
@[simp] theorem Block.writeFlags_refout : (b.writeFlags v).refout = v.getLsbD 1 := rfl
@[simp] theorem Block.writeFlags_init : (b.writeFlags v).init = b.init := rfl
@[simp] theorem Block.writeFlags_xorout : (b.writeFlags v).xorout = b.xorout := rfl
@[simp] theorem Block.writeFlags_operand : (b.writeFlags v).operand = b.operand := rfl
@[simp] theorem Block.writeFlags_result : (b.writeFlags v).result = b.result := rfl
@[simp] theorem Block.writeFlags_valid : (b.writeFlags v).valid = false := rfl
@[simp] theorem Block.writeFlags_done : (b.writeFlags v).done = b.done := rfl
@[simp] theorem Block.writeFlags_cfgErr : (b.writeFlags v).cfgErr = b.cfgErr := rfl
@[simp] theorem Block.writeFlags_cmdErr : (b.writeFlags v).cmdErr = b.cmdErr := rfl
@[simp] theorem Block.writeFlags_busyErr : (b.writeFlags v).busyErr = b.busyErr := rfl
@[simp] theorem Block.writeFlags_accErr : (b.writeFlags v).accErr = b.accErr := rfl
@[simp] theorem Block.writeFlags_table : (b.writeFlags v).table = b.table := rfl
@[simp] theorem Block.writeFlags_pend : (b.writeFlags v).pend = b.pend := rfl
end WriteFlags

section AfterReset
variable (d : Nat)
@[simp] theorem Block.afterReset_width : (Block.afterReset d).width = 16 := rfl
@[simp] theorem Block.afterReset_poly : (Block.afterReset d).poly = 0x5935 := rfl
@[simp] theorem Block.afterReset_refin : (Block.afterReset d).refin = false := rfl
@[simp] theorem Block.afterReset_refout : (Block.afterReset d).refout = false := rfl
@[simp] theorem Block.afterReset_init : (Block.afterReset d).init = 0 := rfl
@[simp] theorem Block.afterReset_xorout : (Block.afterReset d).xorout = 0 := rfl
@[simp] theorem Block.afterReset_operand : (Block.afterReset d).operand = 0 := rfl
@[simp] theorem Block.afterReset_result : (Block.afterReset d).result = 0 := rfl
@[simp] theorem Block.afterReset_valid : (Block.afterReset d).valid = false := rfl
@[simp] theorem Block.afterReset_done : (Block.afterReset d).done = false := rfl
@[simp] theorem Block.afterReset_cfgErr : (Block.afterReset d).cfgErr = false := rfl
@[simp] theorem Block.afterReset_cmdErr : (Block.afterReset d).cmdErr = false := rfl
@[simp] theorem Block.afterReset_busyErr : (Block.afterReset d).busyErr = false := rfl
@[simp] theorem Block.afterReset_accErr : (Block.afterReset d).accErr = false := rfl
@[simp] theorem Block.afterReset_pend : (Block.afterReset d).pend = none := rfl
end AfterReset

@[simp] theorem Block.reset_width : Block.reset.width = 16 := rfl
@[simp] theorem Block.reset_poly : Block.reset.poly = 0x5935 := rfl
@[simp] theorem Block.reset_refin : Block.reset.refin = false := rfl
@[simp] theorem Block.reset_refout : Block.reset.refout = false := rfl
@[simp] theorem Block.reset_init : Block.reset.init = 0 := rfl
@[simp] theorem Block.reset_xorout : Block.reset.xorout = 0 := rfl
@[simp] theorem Block.reset_operand : Block.reset.operand = 0 := rfl
@[simp] theorem Block.reset_result : Block.reset.result = 0 := rfl
@[simp] theorem Block.reset_valid : Block.reset.valid = false := rfl
@[simp] theorem Block.reset_done : Block.reset.done = false := rfl
@[simp] theorem Block.reset_cfgErr : Block.reset.cfgErr = false := rfl
@[simp] theorem Block.reset_cmdErr : Block.reset.cmdErr = false := rfl
@[simp] theorem Block.reset_busyErr : Block.reset.busyErr = false := rfl
@[simp] theorem Block.reset_accErr : Block.reset.accErr = false := rfl
@[simp] theorem Block.reset_pend : Block.reset.pend = none := rfl

/-- A WIDTH write either stores a legal width and clears VALID, or raises CFG_ERR (R31). -/
theorem Block.writeWidth_cases (b : Block) (v : Word) :
    (8 ≤ v.toNat ∧ v.toNat ≤ 32 ∧ b.writeWidth v = { b with width := v.setWidth 6, valid := false })
      ∨ (¬(8 ≤ v.toNat ∧ v.toNat ≤ 32) ∧ b.writeWidth v = b.raise .cfg) := by
  unfold Block.writeWidth
  split
  · exact .inl ⟨by omega, by omega, rfl⟩
  · exact .inr ⟨by assumption, rfl⟩

/-- An entry of a generated table is the function's value there (R109). -/
@[simp] theorem Block.storeTable_entry (b : Block) (f : BitVec 8 → Word) (i : BitVec 8) :
    (b.storeTable f).entry i = f i := by
  show (Vector.ofFn fun j => f (BitVec.ofFin j))[i.toNat]'i.isLt = f i
  rw [Vector.getElem_ofFn]
  rfl

@[simp] theorem Block.finish_entry (b : Block) (i : BitVec 8) : b.finish.entry i = b.entry i := rfl
@[simp] theorem Block.raise_entry (b : Block) (e : Err) (i : BitVec 8) : (b.raise e).entry i = b.entry i := rfl

/-- Each error as the one bit it sets (R125). -/
theorem Block.raise_cfg (b : Block) : b.raise .cfg = { b with cfgErr := true } := by simp [Block.raise]
theorem Block.raise_cmd (b : Block) : b.raise .cmd = { b with cmdErr := true } := by simp [Block.raise]
theorem Block.raise_busy (b : Block) : b.raise .busy = { b with busyErr := true } := by simp [Block.raise]
theorem Block.raise_acc (b : Block) : b.raise .acc = { b with accErr := true } := by simp [Block.raise]

@[simp] theorem Block.busy_eq_false (b : Block) : b.busy = false ↔ b.pend = none := by
  simp [Block.busy]
@[simp] theorem Block.busy_eq_true (b : Block) : b.busy = true ↔ ∃ i, b.pend = some i := by
  simp [Block.busy, Option.isSome_iff_exists]
@[simp] theorem Block.raise_errBit (b : Block) (e e' : Err) :
    (b.raise e).errBit e' = (b.errBit e' || decide (e = e')) := by
  cases e' <;> rfl

end Sys2Proof.Machine
end

