-- ==== Sys2Proof/Laws/Ops.lean ====
section
/-! SUPPORT. What the shared operations can do, each said once: completion, issue, the address window, reads and writes. -/

namespace Sys2Proof.Machine

/-- Completion always answers a next state, and changes only `block`. -/
theorem complete_eq (f : Block → Block) (s : State) :
    complete f s = .next { s with block := (f s.block).finish } := rfl

/-- The effect of a command on CRCTG, before R84's common part. -/
def effectOf : Instr → Block → Block
  | .nop => fun b => b
  | .reflect bc => fun b => b.storeResult (reflect b.operand (bitCount bc))
  | .mask => fun b => b.storeResult (widthMask b.widthArg)
  | .byterem idx => fun b => b.storeResult (b.remainder idx)
  | .generate => fun b => b.storeTable b.remainder
  | .lddef => fun b => b.loadDefault

/-- Every command completes, through its effect and the common part (R84). -/
theorem exec_eq (i : Instr) (s : State) :
    exec i s = .next { s with block := (effectOf i s.block).finish } := by
  cases i <;> rfl

/-- An issue either raises CMD_ERR or accepts the command its word names (R80). -/
theorem Block.issue_cases (b : Block) (v : Word) :
    (∃ why, decode v = .illegal why ∧ b.issue v = b.raise .cmd)
      ∨ (∃ i, decode v = .command i ∧ b.issue v = b.accept i) := by
  unfold Block.issue
  cases decode v with
  | illegal why => exact .inl ⟨why, rfl, rfl⟩
  | command i => exact .inr ⟨i, rfl, rfl⟩

/-- An offset's address lies in the window, at that offset. -/
@[simp] theorem windowOffset_addrOf (off : BitVec 11) : windowOffset (addrOf off) = some off := by
  have h : off.toNat < 2048 := off.isLt
  have hb : Config.crctgBase + off.toNat < Config.crctgBase + 2048 := by omega
  simp [windowOffset, addrOf, Config.windowBytes, hb]

/-- An address reaches CRCTG only as the address of an offset (R45, R47). -/
theorem windowOffset_eq_some {addr : Nat} {off : BitVec 11} :
    windowOffset addr = some off ↔ addr = addrOf off := by
  constructor
  · intro h
    unfold windowOffset at h
    split at h
    · rename_i hw
      simp only [Option.some.injEq] at h
      subst h
      simp only [addrOf, BitVec.toNat_ofNat, Config.windowBytes] at *
      omega
    · cases h
  · rintro rfl
    exact windowOffset_addrOf off

/-- An access that arrives at the window is answered at its offset. -/
theorem memRead_addrOf (off : BitVec 11) (size : Size) (b : Block) :
    memRead (addrOf off) size b = (some (portRead off size b).1, (portRead off size b).2) := by
  simp [memRead]

theorem memWrite_addrOf (off : BitVec 11) (size : Size) (v : Word) (b : Block) :
    memWrite (addrOf off) size v b = (some (portWrite off size v b).1, (portWrite off size v b).2) := by
  simp [memWrite]

/-- A word access at a location's own offset is served there (R17). -/
@[simp] theorem served_offset (r : Reg) : served .word r.offset = some r := by
  cases r with
  | table i => revert i; decide +kernel
  | _ => decide

/-- A read of a location at its own offset is answered its value. -/
@[simp] theorem Block.readAnswer_eq (b : Block) (r : Reg) : b.readAnswer r = some (.data (b.readValue r)) := by
  simp [Block.readAnswer, Reg.readAccess, Access.perform, memRead_addrOf, portRead]

/-- A write of a command, model or operand register while nothing is pending (R54). -/
theorem Block.write_idle {b : Block} {r : Reg} (h : b.pend = none)
    (hr : r ≠ .status ∧ r ≠ .result ∧ ∀ i, r ≠ .table i) (v : Word) : b.write r v = b.writeIdle v r := by
  cases r <;> simp_all [Block.write]

/-- A read changes nothing, or raises ACC_ERR on a table entry while VALID = 0 (R52). -/
theorem Block.afterRead_cases (b : Block) (r : Reg) :
    b.afterRead r = b ∨ ∃ i, r = .table i ∧ b.valid = false ∧ b.afterRead r = b.raise .acc := by
  cases r <;> simp [Block.afterRead]
  cases b.valid <;> simp

/-- What a write of a location can do (R54): W1C, one error, or the store of one register. -/
theorem Block.write_cases (b : Block) (r : Reg) (v : Word) :
    (r = .status ∧ b.write r v = b.clearOnes v)
      ∨ ((r = .result ∨ ∃ i, r = .table i) ∧ b.write r v = b.raise .acc)
      ∨ ((r ≠ .status ∧ r ≠ .result ∧ ∀ i, r ≠ .table i) ∧
          ((b.busy = true ∧ b.write r v = b.raise .busy)
            ∨ (b.busy = false ∧ b.write r v = b.writeIdle v r))) := by
  cases r <;>
    simp only [Block.write, reduceCtorEq, false_and, true_and, or_false, false_or, ne_eq, not_false_eq_true,
      and_self, implies_true, exists_false] <;>
    cases b.busy <;> simp

end Sys2Proof.Machine
end

