-- ==== Sys2Proof/Laws/PerInstr.lean ====
section
/-! SUPPORT. A family of facts about every command as syntax: its encoding matches its row of the opcode map (R70). -/

namespace Sys2Proof.Laws.MatchesRow

/-- The encoding of a command has the row's fixed bits: `v & mask = match` (R70). -/
def Statement (i : Instr) : Prop := encode i &&& i.rowMask = i.rowMatch

theorem nop : Statement .nop := rfl

theorem reflect (bc : BitVec 6) : Statement (.reflect bc) := by
  revert bc
  unfold Statement
  decide

theorem mask : Statement .mask := rfl

theorem byterem (idx : BitVec 8) : Statement (.byterem idx) := by
  apply BitVec.eq_of_getLsbD_eq
  intro k hk
  simp only [encode, Instr.rowMask, Instr.rowMatch]
  interval_cases k <;> simp

theorem generate : Statement .generate := rfl

theorem lddef : Statement .lddef := rfl

end Sys2Proof.Laws.MatchesRow
end

