-- ==== Sys2Proof/Laws/Step.lean ====
section
/-! SUPPORT. What a step can do, said once. -/

namespace Sys2Proof.Machine

/-- A step that answers a next state is a host access, a completion, a reset, or the idle step (R14). -/
theorem step_cases {s t : State} (h : step s = .next t) :
    (∃ a rest, s.agenda = .host a :: rest ∧ t = { s with agenda := rest }.hostStep a)
      ∨ (∃ i rest, s.block.pend = some i ∧ (s.agenda = .engine :: rest ∨ (s.agenda = [] ∧ rest = []))
          ∧ t = { s with block := (effectOf i s.block).finish, agenda := rest })
      ∨ (∃ rest, s.agenda = .reset :: rest ∧ t = { s with agenda := rest }.resetStep)
      ∨ (s.agenda = [] ∧ s.block.pend = none ∧ t = s) := by
  obtain ⟨b, agenda, response, draws⟩ := s
  match agenda with
  | .host a :: rest =>
    simp only [step, Host.Outcome.next.injEq] at h
    exact .inl ⟨a, rest, rfl, h.symm⟩
  | .engine :: rest =>
    refine .inr (.inl ?_)
    simp only [step, engineStep] at h
    cases hp : b.pend with
    | none => simp [hp] at h
    | some i =>
      simp only [hp, exec_eq, Host.Outcome.next.injEq] at h
      exact ⟨i, rest, rfl, .inl rfl, h.symm⟩
  | .reset :: rest =>
    simp only [step, Host.Outcome.next.injEq] at h
    exact .inr (.inr (.inl ⟨rest, rfl, h.symm⟩))
  | [] =>
    cases hp : b.pend with
    | none =>
      simp only [step, Block.busy, hp, Option.isSome_none, Bool.false_eq_true, if_false,
        Host.Outcome.next.injEq] at h
      exact .inr (.inr (.inr ⟨rfl, rfl, h.symm⟩))
    | some i =>
      simp only [step, Block.busy, hp, Option.isSome_some, if_true, engineStep, exec_eq,
        Host.Outcome.next.injEq] at h
      exact .inr (.inl ⟨i, [], rfl, .inr ⟨rfl, rfl⟩, h.symm⟩)

/-- A host access is always answered with a next state. -/
theorem step_host {s : State} {a : Access} {rest : List Event} (h : s.agenda = .host a :: rest) :
    step s = .next ({ s with agenda := rest }.hostStep a) := by
  simp [step, h]

/-- The engine's turn completes the pending command. -/
theorem step_engine {s : State} {i : Instr} {rest : List Event}
    (hp : s.block.pend = some i) (h : s.agenda = .engine :: rest) :
    step s = exec i { s with agenda := rest } := by
  simp [step, engineStep, h, hp]

/-- With no event left, the pending command completes. -/
theorem step_nil_pending {s : State} {i : Instr} (hp : s.block.pend = some i) (h : s.agenda = []) :
    step s = exec i s := by
  simp [step, engineStep, Block.busy, h, hp]

/-- A reset step is always answered with a next state. -/
theorem step_reset {s : State} {rest : List Event} (h : s.agenda = .reset :: rest) :
    step s = .next { s with agenda := rest }.resetStep := by
  simp [step, h]

@[simp] theorem State.hostStep_agenda (s : State) (a : Access) : (s.hostStep a).agenda = s.agenda := rfl
@[simp] theorem State.hostStep_draws (s : State) (a : Access) : (s.hostStep a).draws = s.draws := rfl
@[simp] theorem State.resetStep_agenda (s : State) : s.resetStep.agenda = s.agenda := rfl
@[simp] theorem State.resetStep_response (s : State) : s.resetStep.response = s.response := rfl
@[simp] theorem State.resetStep_block (s : State) : s.resetStep.block = Block.afterReset s.draws := rfl

/-- A host step at an offset of the window does what the port does there. -/
theorem State.hostStep_read (s : State) (off : BitVec 11) (size : Size) :
    s.hostStep (.read (addrOf off) size) =
      { s with block := (portRead off size s.block).2, response := some (portRead off size s.block).1 } := by
  simp [State.hostStep, Access.perform, memRead_addrOf]

theorem State.hostStep_write (s : State) (off : BitVec 11) (size : Size) (v : Word) :
    s.hostStep (.write (addrOf off) size v) =
      { s with block := (portWrite off size v s.block).2, response := some (portWrite off size v s.block).1 } := by
  simp [State.hostStep, Access.perform, memWrite_addrOf]

/-- A step whose event is `wr REG, v`. -/
theorem step_writeAccess (s : State) (r : Reg) (v : Word) (rest : List Event) :
    step { s with agenda := .host (r.writeAccess v) :: rest } =
      .next { s with block := s.block.write r v, response := some .ok, agenda := rest } := by
  simp [step, Reg.writeAccess, State.hostStep_write, portWrite]

/-- A step whose event is `rd REG`. -/
theorem step_readAccess (s : State) (r : Reg) (rest : List Event) :
    step { s with agenda := .host r.readAccess :: rest } =
      .next { s with
        block := s.block.afterRead r
        response := some (.data (s.block.readValue r))
        agenda := rest } := by
  simp [step, Reg.readAccess, State.hostStep_read, portRead]

end Sys2Proof.Machine
end

