-- ==== Sys2Proof/Tests/Slice0.lean ====
section
/-! SUPPORT. Tests. Every expected value is one of spec/95_test_vectors.md (the section is named at each group) or is worked
out by hand from the rule named; none is the model's own answer. The last group shows that the statements' hypotheses can be met. -/

namespace Sys2Proof.Machine.Tests

/-! ### WellFormed: the one check, on each side of its bound (R68) -/

theorem test_reflect_33_is_ill_formed : (Instr.reflect 33).wellFormed = false := by decide
theorem test_reflect_63_is_ill_formed : (Instr.reflect 63).wellFormed = false := by decide
theorem test_reflect_32_is_well_formed : (Instr.reflect 32).wellFormed = true := by decide

/-! ### Decoding: words written out bit by bit from R65 and R70 (RSV ++ BC ++ IDX ++ OP) -/

theorem test_decode_nop :
    decode (0b0000000000#10 ++ 0b000000#6 ++ 0b00000000#8 ++ 0b00000000#8) = .command .nop := by decide
theorem test_decode_reflect_3 :
    decode (0b0000000000#10 ++ 0b000011#6 ++ 0b00000000#8 ++ 0b00000001#8) = .command (.reflect 3) := by decide
theorem test_decode_reflect_32 :
    decode (0b0000000000#10 ++ 0b100000#6 ++ 0b00000000#8 ++ 0b00000001#8) = .command (.reflect 32) := by decide
theorem test_decode_mask :
    decode (0b0000000000#10 ++ 0b000000#6 ++ 0b00000000#8 ++ 0b00000010#8) = .command .mask := by decide
theorem test_decode_byterem_0xA5 :
    decode (0b0000000000#10 ++ 0b000000#6 ++ 0b10100101#8 ++ 0b00000011#8) = .command (.byterem 0xA5) := by decide
theorem test_decode_generate :
    decode (0b0000000000#10 ++ 0b000000#6 ++ 0b00000000#8 ++ 0b00000100#8) = .command .generate := by decide
theorem test_decode_lddef :
    decode (0b0000000000#10 ++ 0b000000#6 ++ 0b00000000#8 ++ 0b00000101#8) = .command .lddef := by decide

/-- Illegal words of 95_test_vectors.md sections 2.1 to 2.3 and 2.7. -/
theorem test_decode_illegal_words :
    decode 0x00210001 = .illegal .bitCountAbove32 ∧ decode 0x003F0001 = .illegal .bitCountAbove32
      ∧ decode 0x00000101 = .illegal .unusedFieldNonzero ∧ decode 0x00400001 = .illegal .unusedFieldNonzero
      ∧ decode 0x80000001 = .illegal .unusedFieldNonzero ∧ decode 0x00000102 = .illegal .unusedFieldNonzero
      ∧ decode 0x00010002 = .illegal .unusedFieldNonzero ∧ decode 0x01000002 = .illegal .unusedFieldNonzero
      ∧ decode 0x00010003 = .illegal .unusedFieldNonzero ∧ decode 0x10000003 = .illegal .unusedFieldNonzero
      ∧ decode 0x00000100 = .illegal .unusedFieldNonzero ∧ decode 0x00000104 = .illegal .unusedFieldNonzero
      ∧ decode 0x00000006 = .illegal .reservedOpcode ∧ decode 0x000000FF = .illegal .reservedOpcode := by
  decide

/-- R71's own predicate agrees on words at its edges. -/
theorem test_legal_edges :
    legal 0x00200001 = true ∧ legal 0x00210001 = false ∧ legal 0x0000FF03 = true ∧ legal 0x00000105 = false := by
  decide

/-! ### The pure functions (95_test_vectors.md sections 2.1 to 2.3) -/

theorem test_reflect_vectors :
    reflect 0x00003E23 3 = 0x00003E26 ∧ reflect 0x12345678 0 = 0x12345678 ∧ reflect 0xFFFFFFFE 1 = 0xFFFFFFFE
      ∧ reflect 0x000000F0 4 = 0x000000F0 ∧ reflect 0xFFFF0001 16 = 0xFFFF8000
      ∧ reflect 0xABCDEF01 31 = 0xC07BD9EA ∧ reflect 0xDEADBEEF 32 = 0xF77DB57B
      ∧ reflect 0x00000001 32 = 0x80000000 := by
  decide +kernel

theorem test_widthMask_vectors :
    widthMask 1 = 0x00000001 ∧ widthMask 8 = 0x000000FF ∧ widthMask 9 = 0x000001FF
      ∧ widthMask 31 = 0x7FFFFFFF ∧ widthMask 32 = 0xFFFFFFFF := by
  decide

theorem test_byteRemainder_unreflected_vectors :
    byteRemainder 16 0x5935 false 0x80 = 0x6A9E ∧ byteRemainder 16 0xFFFF5935 false 0xFF = 0xB314
      ∧ byteRemainder 8 0x07 false 0xFF = 0xF3 ∧ byteRemainder 9 0x11D false 0x80 = 0x045
      ∧ byteRemainder 24 0x864CFB false 0xFF = 0xDD8538 ∧ byteRemainder 32 0x04C11DB7 false 0x80 = 0x690CE0EE
      ∧ byteRemainder 32 0xFFFFFFFF false 0x80 = 0x00000040 := by
  decide +kernel

theorem test_byteRemainder_reflected_vectors :
    byteRemainder 8 0x07 true 0x01 = 0x91 ∧ byteRemainder 9 0x11D true 0x01 = 0x144
      ∧ byteRemainder 16 0x5935 true 0x80 = 0xAC9A ∧ byteRemainder 16 0x8005 true 0x01 = 0xC0C1
      ∧ byteRemainder 32 0x04C11DB7 true 0x01 = 0x77073096 ∧ byteRemainder 32 0x04C11DB7 true 0xFF = 0x2D02EF8D := by
  decide +kernel

/-! ### Commands: issue, STATUS after acceptance, and the effect at completion -/

/-- Reset state with a STATUS of VALID and DONE, as the rows of section 2.7 have it. -/
def validDone : Block := { Block.reset with valid := true, done := true }

/-- One field of the state an outcome answers, or a value no test expects. -/
def fieldOf {α : Type} (o : Host.Outcome State Fault Refusal) (f : Block → α) (other : α) : α :=
  match o with
  | .next t => f t.block
  | .fault _ | .refused _ => other

/-- A state with block `b` and nothing to come. -/
def withBlock (b : Block) : State := { State.reset with block := b }

theorem test_nop_acceptance_keeps_valid : (validDone.issue 0x00000000).statusWord = 0x00000003 := by decide
theorem test_nop_completion_status :
    fieldOf (exec .nop (withBlock (validDone.issue 0x00000000))) Block.statusWord 0 = 0x00000006 := by decide
theorem test_reflect_completion_result :
    fieldOf (exec (.reflect 3) (withBlock { Block.reset with operand := 0x00003E23 })) Block.result 0 = 0x00003E26 := by
  decide +kernel
theorem test_reflect_32_completion_result :
    fieldOf (exec (.reflect 32) (withBlock { Block.reset with operand := 0x00003E23 })) Block.result 0 = 0xC47C0000 := by
  decide +kernel
theorem test_mask_completion_result :
    fieldOf (exec .mask (withBlock { Block.reset with width := 32 })) Block.result 0 = 0xFFFFFFFF := by decide
theorem test_byterem_completion_result :
    fieldOf (exec (.byterem 0xFF) State.reset) Block.result 0 = 0x0000B314 := by decide +kernel
theorem test_generate_acceptance_clears_valid : (validDone.issue 0x00000004).statusWord = 0x00000001 := by decide
theorem test_generate_completion_entries :
    fieldOf (exec .generate State.reset) (fun b => (b.entry 1, b.entry 128, b.entry 255, b.statusWord)) (0, 0, 0, 0)
      = (0x00005935, 0x00006A9E, 0x0000B314, 0x00000006) := by
  decide +kernel
/-- Section 2.6, second row: REFOUT is kept, VALID cleared. -/
theorem test_lddef_completion :
    fieldOf (exec .lddef (withBlock { validDone with width := 8, poly := 0x107, refin := true, refout := true }))
      (fun b => (b.width, b.poly, b.flagsWord, b.statusWord)) (0, 0, 0, 0) = (16, 0x5935, 0x2, 0x4) := by
  decide
theorem test_lddef_acceptance_keeps_valid : (validDone.issue 0x00000005).statusWord = 0x00000003 := by decide
/-- Section 2.7: an illegal word leaves DONE. -/
theorem test_illegal_issue_status :
    ({ Block.reset with done := true }.issue 0x00000006).statusWord = 0x00000014 := by decide

/-- The step that follows `withFetchWord` runs the word, from reset. -/
theorem test_fetched_mask_runs :
    fieldOf (step (State.reset.withFetchWord 32 0x00000002)) Block.result 0 = 0x0000FFFF := by decide +kernel
theorem test_fetched_byterem_runs :
    fieldOf (step (State.reset.withFetchWord 32 0x00000103)) Block.result 0 = 0x00005935 := by decide +kernel

/-! ### The bus port (95_test_vectors.md sections 2.8 and 2.9) -/

/-- A block with a NOP pending. -/
def nopPending : Block := Block.reset.accept .nop

theorem test_width_write_7_and_8 :
    (Block.reset.write .width 7).statusWord = 0x8 ∧ (Block.reset.write .width 7).width = 16
      ∧ (Block.reset.write .width 8).width = 8 ∧ (Block.reset.write .width 32).width = 32
      ∧ (Block.reset.write .width 33).statusWord = 0x8 ∧ (Block.reset.write .width 0x80000010).statusWord = 0x8 := by
  decide
theorem test_flags_write_ignores_high_bits :
    (portRead 0x010 .word (portWrite 0x010 .word 0xFFFFFFFF Block.reset).2).1 = .data 3 := by decide
theorem test_poly_write_clears_valid : (validDone.write .poly 0x5935).statusWord = 0x4 := by decide
theorem test_xorout_write_keeps_valid : (validDone.write .xorout 0x12345678).statusWord = 0x6 := by decide
theorem test_status_write_7C :
    ({ validDone with cfgErr := true, cmdErr := true, busyErr := true, accErr := true }.write .status 0x7C).statusWord
      = 0x2 := by decide
theorem test_status_write_while_pending :
    ({ nopPending with cfgErr := true, cmdErr := true, busyErr := true }.write .status 0xFFFFFFFF).statusWord = 0x1 := by
  decide
theorem test_bus_errors_change_nothing :
    portWrite 0x024 .word 1 Block.reset = (.busError, Block.reset)
      ∧ (portRead 0x3FC .word Block.reset).1 = .busError ∧ (portRead 0x7FE .word Block.reset).1 = .busError
      ∧ (portRead 0x402 .word Block.reset).1 = .busError ∧ (portRead 0x004 .byte Block.reset).1 = .busError
      ∧ (portWrite 0x000 .half 4 Block.reset).1 = .busError :=
  ⟨rfl, by decide, by decide, by decide, by decide, by decide⟩
theorem test_table_read_invalid :
    (portRead 0x400 .word Block.reset).1 = .data 0 ∧ (portRead 0x400 .word Block.reset).2.statusWord = 0x40 := by decide
theorem test_priority_while_pending :
    (nopPending.write .result 5).statusWord = 0x41 ∧ (nopPending.write (.table 0) 5).statusWord = 0x41
      ∧ (nopPending.write .cmd 6).statusWord = 0x21 ∧ (nopPending.write .width 7).statusWord = 0x21
      ∧ (portRead 0x00C .word nopPending).1 = .data 0x5935 := by
  decide
theorem test_last_table_offset : served .word 0x7FC = some (.table 255) ∧ served .word 0x020 = some .result := by decide

/-- Bits 15..8 of the bus word are lane 1 (R49). -/
theorem test_busLane_1 : busLane 0x12345678 1 = 0x56 := by decide

/-! ### Reset and the host notation -/

theorem test_reset_discards_pending :
    fieldOf (step { withBlock (Block.reset.accept .generate) with agenda := [.reset] })
      (fun b => (b.pend, b.valid, b.done, b.width)) (some .nop, true, true, 0) = (none, false, false, 16) := by
  decide

theorem test_assembler_refuses_reflect_33 : (Mnemonic.reflect 33).expand = none := by decide
theorem test_assembler_byterem_255 : (Mnemonic.byterem 255).expand = some (.wr (.reg .cmd) 0x0000FF03) := by decide

/-- `bset h0, 0, l` loops back to its label while bit 0 is 1 (R75, R77). -/
theorem test_wait_loops_while_busy :
    ({ program := waitLines 0 7, lineNo := 2, regs := Vector.replicate 8 1, busErrors := 0, halted := false : HostRun }.after
      (.bset 0 0 7) none).lineNo = 0 := by decide

/-- A read line puts the data in its register; a bus error leaves the register and is noted (R75). -/
theorem test_rd_line :
    ({ program := [], lineNo := 0, regs := Vector.replicate 8 9, busErrors := 0, halted := false : HostRun }.after
        (.rd (.reg .poly) 2) (some (.data 5))).regs[2] = 5
      ∧ ({ program := [], lineNo := 0, regs := Vector.replicate 8 9, busErrors := 0, halted := false : HostRun }.after
        (.rd (.raw 0x402) 2) (some .busError)).regs[2] = 9
      ∧ ({ program := [], lineNo := 0, regs := Vector.replicate 8 9, busErrors := 0, halted := false : HostRun }.after
        (.rd (.raw 0x402) 2) (some .busError)).busErrors = 1 := by
  decide

/-! ### The statements' hypotheses can be met -/

theorem witness_DecodeOfEncodeIsTheCommand :
    (Instr.reflect 32).wellFormed = true ∧ (Instr.byterem 255).wellFormed = true := by decide
theorem witness_DecodedWordIsTheEncoding : decode 0x0000FF03 = .command (.byterem 255) := by decide
theorem witness_MnemonicLinesWriteTheirWords : (Mnemonic.reflect 32).expand = some (.wr (.reg .cmd) 0x00200001) := by decide
theorem witness_IssuedWordRunsAtTheEngineStep :
    State.reset.block.pend = none ∧ decode 0x00200001 = .command (.reflect 32) := by decide
theorem witness_FetchedWordRunsNext : decodeTableWord 32 0x00200001 = some (.reflect 32) := by decide
theorem witness_EngineStepRunsThePendingCommand :
    (withBlock nopPending).block.pend = some .nop ∧ State.reset.block.pend = none := by decide
theorem witness_AcceptanceChangesOnlyPendDoneValid :
    (withBlock validDone).block.pend = none ∧ decode 0x00000004 = .command .generate := by decide
/-- An illegal word of each kind R72 lists, and a legal word, at a state with nothing pending. -/
theorem witness_IllegalWordsOnlyRaiseCmdErr :
    State.reset.block.pend = none ∧ 6 ≤ (opField 0x00000006).toNat ∧ rsvField 0x80000001 ≠ 0
      ∧ (opField 0x00000102 ≠ 0x03#8 ∧ idxField 0x00000102 ≠ 0) ∧ (opField 0x00010003 ≠ 0x01#8 ∧ bcField 0x00010003 ≠ 0)
      ∧ (opField 0x00210001 = 0x01#8 ∧ 33 ≤ (bcField 0x00210001).toNat)
      ∧ ¬(6 ≤ (opField 0x00000005).toNat ∨ rsvField 0x00000005 ≠ 0 ∨ (opField 0x00000005 ≠ 0x03#8 ∧ idxField 0x00000005 ≠ 0)
          ∨ (opField 0x00000005 ≠ 0x01#8 ∧ bcField 0x00000005 ≠ 0)
          ∨ (opField 0x00000005 = 0x01#8 ∧ 33 ≤ (bcField 0x00000005).toNat)) := by
  decide
theorem witness_WritesWhileBusyAreDropped : (withBlock nopPending).block.pend ≠ none := by decide
/-- The hypothesis of the three completion results, at both ends of WIDTH and at the last bit count. -/
theorem witness_WidthLegal_and_bitCount :
    (withBlock { Block.reset with width := 8 }).block.WidthLegal ∧ (withBlock { Block.reset with width := 32 }).block.WidthLegal
      ∧ (32 : BitVec 6).toNat ≤ 32 := by
  simp [Block.WidthLegal, withBlock]
/-- A host access that sets an error bit: an illegal word from reset. -/
theorem witness_EngineRaisesNoError :
    ∃ s t : State, step s = .next t ∧ s.block.errBit .cmd = false ∧ t.block.errBit .cmd = true :=
  ⟨{ State.reset with agenda := .host (Reg.cmd.writeAccess 6) :: [] }, _, step_writeAccess _ _ _ _, by decide, by decide⟩
theorem witness_WidthWriteIsChecked :
    State.reset.block.pend = none ∧ (8 ≤ (8 : Word).toNat ∧ (8 : Word).toNat ≤ 32) ∧ (8 ≤ (32 : Word).toNat ∧ (32 : Word).toNat ≤ 32)
      ∧ ¬(8 ≤ (7 : Word).toNat ∧ (7 : Word).toNat ≤ 32) ∧ ¬(8 ≤ (33 : Word).toNat ∧ (33 : Word).toNat ≤ 32) := by
  decide
theorem witness_PolyFlagsInitXoroutOperandWrites : State.reset.block.pend = none := rfl
theorem witness_IdleWritesReadBack :
    ∃ s t : State, s.block.pend = none ∧
      step { s with agenda := .host (Reg.width.writeAccess 32) :: .host Reg.width.readAccess :: [] } = .next t :=
  ⟨State.reset, _, rfl, step_writeAccess _ _ _ _⟩
theorem witness_ReadOnlyWritesRaiseAccErr : Reg.table 255 = .result ∨ ∃ i, Reg.table 255 = .table i := .inr ⟨255, rfl⟩
theorem witness_TableWindowIsGuardedByValid :
    (withBlock validDone).block.valid = true ∧ State.reset.block.valid = false := by decide
theorem witness_UnservedAccessesReturnBusError :
    ¬(Size.half = .word ∧ (0x000 : BitVec 11).toNat % 4 = 0
        ∧ ((0x000 : BitVec 11).toNat ≤ 0x020 ∨ (0x400 ≤ (0x000 : BitVec 11).toNat ∧ (0x000 : BitVec 11).toNat ≤ 0x7FC)))
      ∧ ¬(Size.word = .word ∧ (0x024 : BitVec 11).toNat % 4 = 0
        ∧ ((0x024 : BitVec 11).toNat ≤ 0x020 ∨ (0x400 ≤ (0x024 : BitVec 11).toNat ∧ (0x024 : BitVec 11).toNat ≤ 0x7FC)))
      ∧ (Size.word = .word ∧ (0x7FC : BitVec 11).toNat % 4 = 0
        ∧ ((0x7FC : BitVec 11).toNat ≤ 0x020 ∨ (0x400 ≤ (0x7FC : BitVec 11).toNat ∧ (0x7FC : BitVec 11).toNat ≤ 0x7FC))) := by
  decide
theorem witness_AddressesOutsideTheWindowDoNotReachIt :
    Config.crctgBase + 0x800 < Config.crctgBase ∨ Config.crctgBase + 0x7FF < Config.crctgBase + 0x800 := by omega
theorem witness_LocationsDoNotAlias :
    Reg.result.offset = Reg.result.offset ∧ served .word 0x7FC = some (.table 255)
      ∧ (Reg.status ≠ .table 255 ∧ Reg.table 255 ≠ .status ∧ validDone.valid = true)
      ∧ (Reg.table 0 ≠ .table 255 ∧ Reg.table 0 ≠ .status)
      ∧ (Reg.result ∈ [Reg.width, .poly, .flags, .init, .xorout, .operand, .result] ∧ Reg.table 255 ≠ .result) := by
  decide
/-- A step that answers a next state and is no reset, for the rules about every step and the invariants; its start meets
every invariant. -/
theorem witness_legal_step :
    ∃ s t : State, s.block.Legal ∧ step s = .next t ∧ ¬s.NextResets :=
  ⟨{ State.reset with agenda := .host (Reg.width.writeAccess 8) :: [] }, _,
    ⟨by simp [Block.WidthLegal, State.reset], fun h => by simp [State.reset] at h, fun i h => by simp [State.reset] at h⟩,
    step_writeAccess _ _ _ _, by simp [State.NextResets]⟩
/-- Steps that change RESULT and the table RAM, with no reset. -/
theorem witness_ResultAndTableHaveOneWriter :
    fieldOf (step (withBlock (Block.reset.accept .mask))) Block.result 0 ≠ Block.reset.result
      ∧ fieldOf (step (withBlock (Block.reset.accept .generate))) (fun b => b.entry 1) 0 ≠ Block.reset.entry 1
      ∧ ¬(withBlock (Block.reset.accept .mask)).NextResets :=
  ⟨by decide, by decide +kernel, by simp [State.NextResets, withBlock, State.reset]⟩
/-- One access that newly sets an error bit (the two errors of the statement are then the same). -/
theorem witness_OneAccessRaisesAtMostOneError :
    ∃ s t : State, step s = .next t ∧ s.block.errBit .acc = false ∧ t.block.errBit .acc = true :=
  ⟨{ State.reset with agenda := .host ((Reg.table 255).writeAccess 0) :: [] }, _, step_writeAccess _ _ _ _, by decide, by decide⟩
theorem witness_OperandsAreHeldWhilePending : (withBlock nopPending).block.pend ≠ none := by decide
theorem witness_PendingCommandCompletes :
    { withBlock nopPending with agenda := [.engine] }.block.pend = some .nop
      ∧ Event.reset ∉ { withBlock nopPending with agenda := [.engine] }.agenda := by
  decide
theorem witness_GenerateFillsTheTableOfTheAcceptedModel :
    State.reset.block.pend = none ∧ (1 ≤ 1 ∧ 1 ≤ ([] : List Access).length + 1) ∧ State.reset.block.WidthLegal := by
  simp [State.reset, Block.WidthLegal]
/-- Two different tables while VALID = 0. -/
theorem witness_HiddenTableIsUnobservable :
    State.reset.SameButHiddenTable (withBlock { Block.reset with table := Vector.replicate 256 1 }) :=
  ⟨⟨rfl, fun h => by simp [State.reset] at h⟩, rfl, rfl, rfl⟩
/-- Two machines that differ in all three inert registers and in the last answer, and the step of an access that reads none of
the three. -/
theorem witness_InertRegistersAffectNothing :
    ∃ s t s' : State, s.block.SameButInert t.block ∧ s.block.init ≠ t.block.init ∧ s.block.xorout ≠ t.block.xorout
      ∧ s.block.refout ≠ t.block.refout ∧ s.response ≠ t.response ∧ s.agenda = t.agenda ∧ s.draws = t.draws
      ∧ step s = .next s' ∧ (s.response = t.response ∨ ∃ a rest, s.agenda = .host a :: rest)
      ∧ ¬s.NextReads .init ∧ ¬s.NextReads .xorout ∧ ¬s.NextReads .flags :=
  ⟨{ State.reset with agenda := [.host (Reg.poly.writeAccess 7)] },
    { withBlock { Block.reset with init := 1, xorout := 2, refout := true } with
      agenda := [.host (Reg.poly.writeAccess 7)], response := some .ok }, _,
    rfl, by decide, by decide, by decide, by decide, rfl, rfl, step_writeAccess _ _ _ _, .inr ⟨_, _, rfl⟩,
    by simp [State.NextReads, Reg.writeAccess, Reg.readAccess], by simp [State.NextReads, Reg.writeAccess, Reg.readAccess],
    by simp [State.NextReads, Reg.writeAccess, Reg.readAccess]⟩
theorem witness_ReflectReversesTheLowBits : (32 ≤ 32) ∧ (31 < 32) ∧ (0 ≤ 32) := by decide
theorem witness_WidthMaskIsTwoToTheWidthMinusOne : (1 ≤ 1 ∧ 1 ≤ 32) ∧ (1 ≤ 32 ∧ 32 ≤ 32) := by decide
/-- The widths of the remainder statements, and a polynomial with no bit below WIDTH. -/
theorem witness_remainder_domain : (8 ≤ 8 ∧ 8 ≤ 32) ∧ (8 ≤ 32 ∧ 32 ≤ 32) ∧ (0xFF00 : Word) &&& widthMask 8 = 0 := by decide
/-- Two machines with polynomials that differ only above WIDTH, both completing a GENERATE. -/
theorem witness_EqualModelsGenerateEqualTables :
    ∃ s s' t t' : State, s.block.WidthLegal ∧ s.block.width = s'.block.width ∧ s.block.refin = s'.block.refin
      ∧ s.block.poly ≠ s'.block.poly
      ∧ s.block.poly &&& widthMask s.block.width.toNat = s'.block.poly &&& widthMask s.block.width.toNat
      ∧ exec .generate s = .next t ∧ exec .generate s' = .next t' :=
  ⟨State.reset, withBlock { Block.reset with poly := 0xFFFF5935 }, _, _, by simp [Block.WidthLegal, State.reset], rfl, rfl,
    by decide, by decide, rfl, rfl⟩

end Sys2Proof.Machine.Tests
end

namespace Sys2Proof.Machine

/-! ## Accesses: every host access reads a location, writes one, or touches nothing of CRCTG -/

/-- The platform address tells the offset (R45). -/
theorem addrOf_injective : Function.Injective addrOf := fun off off' h => by
  have hw := windowOffset_addrOf off
  rw [h, windowOffset_addrOf] at hw
  exact (Option.some.inj hw).symm

/-- Each offset of R17 is of one location (R19). -/
theorem Reg.offset_injective : Function.Injective Reg.offset := fun r r' h => by
  have hs := served_offset r
  rw [h, served_offset] at hs
  exact (Option.some.inj hs).symm

/-- The offset of a table entry, as a number (R17, R38). -/
theorem Reg.offset_table_toNat (i : BitVec 8) : (Reg.table i).offset.toNat = 0x400 + 4 * i.toNat := by
  have hi := i.isLt
  simp only [Reg.offset, BitVec.toNat_add, BitVec.toNat_shiftLeft, BitVec.toNat_setWidth, BitVec.toNat_ofNat,
    Nat.shiftLeft_eq]
  omega

/-- An aligned offset of the table window is the offset of the entry it is decoded to. -/
theorem Reg.offset_table_of_aligned {off : BitVec 11} (halign : off.extractLsb' 0 2 = 0#2)
    (hlow : 0x400 ≤ off.toNat) : (Reg.table (((off - 0x400#11) >>> 2).setWidth 8)).offset = off := by
  have halign' : off.toNat % 4 = 0 := by simpa using congrArg BitVec.toNat halign
  have hoff := off.isLt
  apply BitVec.eq_of_toNat_eq
  rw [Reg.offset_table_toNat, BitVec.toNat_setWidth, BitVec.toNat_ushiftRight,
    BitVec.toNat_sub, Nat.shiftRight_eq_div_pow, BitVec.toNat_ofNat]
  omega

/-- The location an aligned offset is decoded to stands at that offset. -/
theorem Reg.offset_of_ofOffset {off : BitVec 11} {r : Reg} (halign : off.extractLsb' 0 2 = 0#2)
    (h : Reg.ofOffset off = some r) : off = r.offset := by
  have htable := fun hlow => (Reg.offset_table_of_aligned halign hlow).symm
  unfold Reg.ofOffset at h
  split_ifs at h <;> cases h <;> solve_by_elim

/-- A location is served at its own offset alone, by word accesses alone (R19, R48, R50). -/
theorem served_eq_some {size : Size} {off : BitVec 11} {r : Reg} :
    served size off = some r ↔ size = .word ∧ off = r.offset := by
  constructor
  · intro h
    unfold served at h
    split_ifs at h with hsize halign hmapped
    exact ⟨not_not.mp hsize, Reg.offset_of_ofOffset (not_not.mp halign) h⟩
  · rintro ⟨rfl, rfl⟩
    exact served_offset r

@[simp] theorem Reg.readAccess_inj {r r' : Reg} : r.readAccess = r'.readAccess ↔ r = r' :=
  ⟨fun h => Reg.offset_injective (addrOf_injective (Access.read.inj h).1), congrArg _⟩

@[simp] theorem Reg.writeAccess_inj {r r' : Reg} {v v' : Word} :
    r.writeAccess v = r'.writeAccess v' ↔ r = r' ∧ v = v' := by
  constructor
  · intro h
    obtain ⟨haddr, -, hv⟩ := Access.write.inj h
    exact ⟨Reg.offset_injective (addrOf_injective haddr), hv⟩
  · rintro ⟨rfl, rfl⟩
    rfl

@[simp] theorem Reg.readAccess_ne_writeAccess {r r' : Reg} {v : Word} : r.readAccess ≠ r'.writeAccess v :=
  Access.noConfusion

@[simp] theorem Reg.writeAccess_ne_readAccess {r r' : Reg} {v : Word} : r.writeAccess v ≠ r'.readAccess :=
  Access.noConfusion

/-- The access is `rd REG` or `wr REG, v` of no location: misaligned, narrow, unmapped or outside the window. -/
def Access.NamesNoLocation (a : Access) : Prop :=
  (∀ r, a ≠ Reg.readAccess r) ∧ ∀ r v, a ≠ Reg.writeAccess r v

/-- An access is a read of a location, a write of one, or names none. -/
theorem Access.cases (a : Access) :
    (∃ r, a = Reg.readAccess r) ∨ (∃ r v, a = Reg.writeAccess r v) ∨ a.NamesNoLocation := by
  by_cases hread : ∃ r, a = Reg.readAccess r
  · exact .inl hread
  · by_cases hwrite : ∃ r v, a = Reg.writeAccess r v
    · exact .inr (.inl hwrite)
    · exact .inr (.inr ⟨not_exists.mp hread, fun r v h => hwrite ⟨r, v, h⟩⟩)

@[simp] theorem Access.perform_readAccess (r : Reg) (b : Block) :
    r.readAccess.perform b = (some (.data (b.readValue r)), b.afterRead r) := by
  simp [Reg.readAccess, Access.perform, memRead_addrOf, portRead]

@[simp] theorem Access.perform_writeAccess (r : Reg) (v : Word) (b : Block) :
    (r.writeAccess v).perform b = (some .ok, b.write r v) := by
  simp [Reg.writeAccess, Access.perform, memWrite_addrOf, portWrite]

/-- An access that names no location changes nothing, and its answer does not depend on CRCTG's state (R47, R50). -/
theorem Access.perform_of_namesNoLocation {a : Access} (h : a.NamesNoLocation) :
    ∃ answer, ∀ b, a.perform b = (answer, b) := by
  obtain ⟨hread, hwrite⟩ := h
  cases a with
  | read addr size =>
    cases hoff : windowOffset addr with
    | none => exact ⟨none, fun b => by simp [Access.perform, memRead, hoff]⟩
    | some off =>
      cases hserved : served size off with
      | none => exact ⟨some .busError, fun b => by simp [Access.perform, memRead, hoff, portRead, hserved]⟩
      | some r =>
        obtain ⟨rfl, rfl⟩ := served_eq_some.mp hserved
        exact absurd (by rw [windowOffset_eq_some.mp hoff]; rfl) (hread r)
  | write addr size v =>
    cases hoff : windowOffset addr with
    | none => exact ⟨none, fun b => by simp [Access.perform, memWrite, hoff]⟩
    | some off =>
      cases hserved : served size off with
      | none => exact ⟨some .busError, fun b => by simp [Access.perform, memWrite, hoff, portWrite, hserved]⟩
      | some r =>
        obtain ⟨rfl, rfl⟩ := served_eq_some.mp hserved
        exact absurd (by rw [windowOffset_eq_some.mp hoff]; rfl) (hwrite r v)

/-! ## The next event: what a step does to CRCTG, by the event at the head of the agenda -/

section NextEvent
variable {s : State}

theorem State.nextWrites_iff {r : Reg} {v : Word} :
    s.NextWrites r v ↔ s.agenda.head? = some (.host (r.writeAccess v)) :=
  List.head?_eq_some_iff.symm

theorem State.nextReads_iff {r : Reg} : s.NextReads r ↔ s.agenda.head? = some (.host r.readAccess) :=
  List.head?_eq_some_iff.symm

theorem State.nextResets_iff : s.NextResets ↔ s.agenda.head? = some .reset :=
  List.head?_eq_some_iff.symm

theorem State.nextCompletes_iff {i : Instr} :
    s.NextCompletes i ↔
      s.block.pend = some i ∧ (s.agenda.head? = none ∨ s.agenda.head? = some .engine) := by
  rw [List.head?_eq_none_iff, List.head?_eq_some_iff]
  rfl

/-- A command is accepted by a write of its word to CMD while nothing is pending (R80, R82). -/
theorem State.nextAccepts_iff {i : Instr} :
    s.NextAccepts i ↔ s.block.pend = none ∧
      ∃ v, s.agenda.head? = some (.host (Reg.cmd.writeAccess v)) ∧ decode v = .command i := by
  simp only [State.NextAccepts, State.nextWrites_iff]

end NextEvent

/-- The converse of a completion in `step_cases`: with its turn, or with no event left, the engine completes the pending
command (R84, R85). -/
theorem step_completion {s : State} {i : Instr} {rest : List Event} (hpend : s.block.pend = some i)
    (hag : s.agenda = .engine :: rest ∨ (s.agenda = [] ∧ rest = [])) :
    step s = .next { s with block := (effectOf i s.block).finish, agenda := rest } := by
  obtain hag | ⟨hag, rfl⟩ := hag
  · rw [step_engine hpend hag, exec_eq]
  · rw [step_nil_pending hpend hag, exec_eq, ← hag]

/-- With no event left and nothing pending a step changes nothing. -/
theorem step_idle {s : State} (hag : s.agenda = []) (hpend : s.block.pend = none) : step s = .next s := by
  simp [step, hag, hpend]

/-- What a step makes of CRCTG, with the event that does it: R14's agents, a host access by the location it names. -/
inductive BlockStep (s : State) : Block → Prop where
  | unserved {a : Access} (h : s.agenda.head? = some (.host a)) (ha : a.NamesNoLocation) : BlockStep s s.block
  | read {r : Reg} (h : s.agenda.head? = some (.host r.readAccess)) : BlockStep s (s.block.afterRead r)
  | write {r : Reg} {v : Word} (h : s.agenda.head? = some (.host (r.writeAccess v))) :
      BlockStep s (s.block.write r v)
  | completion {i : Instr} (hpend : s.block.pend = some i)
      (h : s.agenda.head? = none ∨ s.agenda.head? = some .engine) : BlockStep s (effectOf i s.block).finish
  | reset (h : s.agenda.head? = some .reset) : BlockStep s (Block.afterReset s.draws)
  | idle (h : s.agenda.head? = none) (hpend : s.block.pend = none) : BlockStep s s.block

/-- Every step does one of the things `BlockStep` lists. -/
theorem blockStep_of_step {s t : State} (h : step s = .next t) : BlockStep s t.block := by
  obtain ⟨a, rest, hag, rfl⟩ | ⟨i, rest, hpend, hag, rfl⟩ | ⟨rest, hag, rfl⟩ | ⟨hag, hpend, rfl⟩ :=
    step_cases h
  · have hhead : s.agenda.head? = some (.host a) := by rw [hag]; rfl
    obtain ⟨r, rfl⟩ | ⟨r, v, rfl⟩ | ha := a.cases
    · simpa [State.hostStep] using BlockStep.read hhead
    · simpa [State.hostStep] using BlockStep.write hhead
    · obtain ⟨answer, hperform⟩ := Access.perform_of_namesNoLocation ha
      simpa [State.hostStep, hperform] using BlockStep.unserved hhead ha
  · refine .completion hpend ?_
    obtain hag | ⟨hag, -⟩ := hag <;> simp [hag]
  · exact .reset (by rw [hag]; rfl)
  · exact .idle (by rw [hag]; rfl) hpend
end Sys2Proof.Machine

namespace Sys2Proof.Machine
/-! ## O46: the inert registers INIT, XOROUT and FLAGS.REFOUT -/

/-- `b` with other values in the inert registers (R39). -/
def Block.setInert (b : Block) (init xorout : Word) (refout : Bool) : Block :=
  { b with init := init, xorout := xorout, refout := refout }

theorem Block.sameButInert_iff {a b : Block} :
    a.SameButInert b ↔ ∃ init xorout refout, b = a.setInert init xorout refout :=
  ⟨fun h => ⟨_, _, _, h.symm⟩, by rintro ⟨_, _, _, rfl⟩; rfl⟩

section SetInert
variable (b : Block) (init xorout : Word) (refout : Bool)

@[simp] theorem Block.setInert_valid : (b.setInert init xorout refout).valid = b.valid := rfl
@[simp] theorem Block.setInert_busy : (b.setInert init xorout refout).busy = b.busy := rfl

theorem Block.sameButInert_setInert : b.SameButInert (b.setInert init xorout refout) := rfl

/-- No command's effect reads an inert register or writes one (R39). -/
theorem effectOf_setInert (i : Instr) :
    effectOf i (b.setInert init xorout refout) = (effectOf i b).setInert init xorout refout := by
  cases i <;> rfl

/-- A store goes to an inert register, or neither depends on them nor changes them. -/
theorem Block.writeIdle_setInert (r : Reg) (v : Word) :
    (b.writeIdle v r).SameButInert ((b.setInert init xorout refout).writeIdle v r) := by
  cases r with
  | cmd =>
    simp only [Block.writeIdle, Block.issue]
    cases decode v <;> rfl
  | width =>
    simp only [Block.writeIdle, Block.writeWidth]
    split <;> rfl
  | _ => rfl

theorem Block.write_setInert (r : Reg) (v : Word) :
    (b.write r v).SameButInert ((b.setInert init xorout refout).write r v) := by
  cases r with
  | status | result | table => rfl
  | _ =>
    by_cases hbusy : b.busy = true <;>
      simp only [Block.write, Block.setInert_busy, hbusy, if_true, if_false, Bool.false_eq_true]
    · rfl
    · exact b.writeIdle_setInert init xorout refout _ v

theorem Block.afterRead_setInert (r : Reg) :
    (b.afterRead r).SameButInert ((b.setInert init xorout refout).afterRead r) := by
  cases r with
  | table =>
    by_cases hvalid : b.valid = true <;>
      simp only [Block.afterRead, Block.setInert_valid, hvalid, if_true, if_false, Bool.false_eq_true] <;> rfl
  | _ => rfl

/-- Only the locations INIT, XOROUT and FLAGS show the inert registers. -/
theorem Block.readValue_setInert {r : Reg} (hinit : r ≠ .init) (hxorout : r ≠ .xorout) (hflags : r ≠ .flags) :
    (b.setInert init xorout refout).readValue r = b.readValue r := by
  cases r with
  | init | xorout | flags => contradiction
  | _ => rfl

theorem Access.perform_setInert (a : Access) :
    (a.perform b).2.SameButInert (a.perform (b.setInert init xorout refout)).2 := by
  obtain ⟨r, rfl⟩ | ⟨r, v, rfl⟩ | ha := a.cases
  · simpa using b.afterRead_setInert init xorout refout r
  · simpa using b.write_setInert init xorout refout r v
  · obtain ⟨answer, hperform⟩ := Access.perform_of_namesNoLocation ha
    simpa [hperform] using b.sameButInert_setInert init xorout refout

/-- Every access but a read of INIT, XOROUT or FLAGS is answered without the inert registers. -/
theorem Access.answer_setInert {a : Access} (hinit : a ≠ Reg.init.readAccess)
    (hxorout : a ≠ Reg.xorout.readAccess) (hflags : a ≠ Reg.flags.readAccess) :
    (a.perform b).1 = (a.perform (b.setInert init xorout refout)).1 := by
  obtain ⟨r, rfl⟩ | ⟨r, v, rfl⟩ | ha := a.cases
  · rw [ne_eq, Reg.readAccess_inj] at hinit hxorout hflags
    simp [b.readValue_setInert init xorout refout hinit hxorout hflags]
  · simp
  · obtain ⟨answer, hperform⟩ := Access.perform_of_namesNoLocation ha
    simp [hperform]

end SetInert

/-- Settles O46, by the step's kinds: each commutes with a change of the inert registers, and only an access answers. -/
theorem inertRegistersAffectNothing : Obligations.InertRegistersAffectNothing := by
  rintro s ⟨tblock, tagenda, tresponse, tdraws⟩ s' hinert hagenda hdraws hstep
  obtain ⟨init, xorout, refout, rfl⟩ := Block.sameButInert_iff.mp hinert
  obtain rfl : s.agenda = tagenda := hagenda
  obtain rfl : s.draws = tdraws := hdraws
  obtain ⟨a, rest, hag, rfl⟩ | ⟨i, rest, hpend, hag, rfl⟩ | ⟨rest, hag, rfl⟩ | ⟨hag, hpend, rfl⟩ :=
    step_cases hstep
  · refine ⟨_, step_host hag, a.perform_setInert s.block init xorout refout, rfl, rfl, ?_⟩
    intro _ hinit hxorout hflags
    rw [State.nextReads_iff, hag] at hinit hxorout hflags
    exact a.answer_setInert s.block init xorout refout (by simpa using hinit) (by simpa using hxorout)
      (by simpa using hflags)
  · refine ⟨_, step_completion hpend hag, ?_, rfl, rfl, ?_⟩
    · rw [effectOf_setInert]
      rfl
    · obtain hag | ⟨hag, -⟩ := hag <;> simp +contextual [hag]
  · exact ⟨_, step_reset hag, rfl, rfl, rfl, by simp +contextual [hag]⟩
  · exact ⟨_, step_idle hag hpend, hinert, rfl, rfl, by simp +contextual [hag]⟩
end Sys2Proof.Machine

namespace Sys2Proof.Machine

/-! ## O19, O20, O21, O26, O43: the registers on the bus and after reset -/

/-- A one-bit field shows in its own bit alone (R29, R33). -/
@[simp] theorem getLsbD_fieldAt (x : Bool) (k j : Nat) :
    (fieldAt x k).getLsbD j = (decide (j < 32) && decide (j = k) && x) := by
  cases x with
  | false => simp [fieldAt]
  | true =>
    have hshift : (fieldAt true k).getLsbD j = (decide (j < 32) && !decide (j < k) && decide (j - k = 0)) := by
      simp [fieldAt]
    grind

/-- Settles O19: the bits of the word R29 assembles, and a read that leaves CRCTG as it was. -/
theorem statusReadsItsSevenFields : Obligations.StatusReadsItsSevenFields := by
  intro s rest
  refine ⟨s.block.statusWord, step_readAccess s .status rest, ?_, ?_, ?_, ?_, ?_, ?_, ?_, fun k hk => ?_⟩
  all_goals simp only [Block.statusWord, BitVec.getLsbD_or, getLsbD_fieldAt]
  case refine_8 =>
    have hne : ∀ n < 7, k ≠ n := by omega
    simp [hne]
  all_goals simp [Block.busy]

/-- Settles O20: the step is R28's clearing of ones. -/
theorem statusWriteClearsOnes : Obligations.StatusWriteClearsOnes :=
  fun s v rest => step_writeAccess s .status v rest

/-- Settles O21, by the two cases of a WIDTH write. -/
theorem widthWriteIsChecked : Obligations.WidthWriteIsChecked := by
  intro s v rest hidle
  have hwrite : s.block.write .width v = s.block.writeWidth v := Block.write_idle hidle (by simp) v
  simp only [step_writeAccess, hwrite]
  obtain ⟨hlow, hhigh, hw⟩ | ⟨hillegal, hw⟩ := s.block.writeWidth_cases v
  · refine ⟨fun _ => ⟨v.setWidth 6, ?_, by rw [hw]⟩, fun h => absurd ⟨hlow, hhigh⟩ h⟩
    rw [BitVec.toNat_setWidth]
    omega
  · exact ⟨fun h => absurd h hillegal, fun _ => by rw [hw, Block.raise_cfg]⟩

/-- Settles O26, by VALID for a read; a write of an entry is dropped with ACC_ERR. -/
theorem tableWindowIsGuardedByValid : Obligations.TableWindowIsGuardedByValid := by
  intro s i v rest
  refine ⟨fun hvalid => ?_, fun hvalid => ?_, ?_, Reg.offset_table_toNat i⟩
  · simp [step_readAccess, Block.afterRead, Block.readValue, hvalid, Block.entry]
  · simp [step_readAccess, Block.afterRead, Block.readValue, hvalid, Block.raise_acc]
  · simp [step_writeAccess, Block.write, Block.raise_acc]

/-- Settles O43: the fields of R44's record. -/
theorem resetStateHasTheSpecsValues : Obligations.ResetStateHasTheSpecsValues := by
  refine ⟨rfl, rfl, rfl, rfl, rfl, rfl, rfl, rfl, ?_, rfl⟩
  decide
end Sys2Proof.Machine

namespace Sys2Proof.Machine

/-! ## O30: each location has its own offset and its own state -/

/-- Nothing the host writes reaches the table RAM (R38). -/
@[simp] theorem Block.write_table (b : Block) (r : Reg) (v : Word) : (b.write r v).table = b.table := by
  obtain ⟨-, hw⟩ | ⟨-, hw⟩ | ⟨-, ⟨-, hw⟩ | ⟨-, hw⟩⟩ := b.write_cases r v <;> rw [hw]
  · rfl
  · rfl
  · rfl
  · cases r with
    | cmd => obtain ⟨_, -, hi⟩ | ⟨i, -, hi⟩ := b.issue_cases v <;> simp [Block.writeIdle, hi]
    | width => obtain ⟨-, -, hi⟩ | ⟨-, hi⟩ := b.writeWidth_cases v <;> simp [Block.writeIdle, hi]
    | _ => rfl

@[simp] theorem Block.write_entry (b : Block) (r : Reg) (v : Word) (i : BitVec 8) :
    (b.write r v).entry i = b.entry i := by
  simp [Block.entry]

/-- An error changes no read but STATUS's. -/
theorem Block.raise_readValue (b : Block) (e : Err) {r : Reg} (hr : r ≠ .status) :
    (b.raise e).readValue r = b.readValue r := by
  cases r with
  | status => contradiction
  | _ => rfl

/-- Neither does a STATUS write (R28). -/
theorem Block.clearOnes_readValue (b : Block) (v : Word) {r : Reg} (hr : r ≠ .status) :
    (b.clearOnes v).readValue r = b.readValue r := by
  cases r with
  | status => contradiction
  | _ => rfl

/-- Acceptance changes no read but STATUS's and, where it clears VALID, the table's (R82). -/
theorem Block.accept_readValue (b : Block) (i : Instr) {r : Reg} (hstatus : r ≠ .status) (htable : ∀ i, r ≠ .table i) :
    (b.accept i).readValue r = b.readValue r := by
  cases r with
  | status => contradiction
  | table i => exact absurd rfl (htable i)
  | _ => rfl

section WriteRead
variable (b : Block) {r r' : Reg} (v : Word) (hne : r ≠ r') (hstatus : r' ≠ .status) (htable : ∀ i, r' ≠ .table i)
include hne hstatus htable

/-- The store of one register changes no read of another but STATUS's and the table's. -/
theorem Block.writeIdle_readValue : (b.writeIdle v r).readValue r' = b.readValue r' := by
  cases r with
  | cmd =>
    obtain ⟨_, -, hissue⟩ | ⟨i, -, hissue⟩ := b.issue_cases v <;> simp only [Block.writeIdle, hissue]
    · exact b.raise_readValue .cmd hstatus
    · exact b.accept_readValue i hstatus htable
  | width =>
    obtain ⟨-, -, hwidth⟩ | ⟨-, hwidth⟩ := b.writeWidth_cases v <;> simp only [Block.writeIdle, hwidth]
    · cases r' <;> simp_all [Block.readValue, Block.flagsWord]
    · exact b.raise_readValue .cfg hstatus
  | status | result | table => rfl
  | _ => cases r' <;> simp_all [Block.writeIdle, Block.readValue, Block.flagsWord]

theorem Block.write_readValue : (b.write r v).readValue r' = b.readValue r' := by
  obtain ⟨-, hw⟩ | ⟨-, hw⟩ | ⟨-, ⟨-, hw⟩ | ⟨-, hw⟩⟩ := b.write_cases r v <;> rw [hw]
  · exact b.clearOnes_readValue v hstatus
  · exact b.raise_readValue .acc hstatus
  · exact b.raise_readValue .busy hstatus
  · exact b.writeIdle_readValue v hne hstatus htable

end WriteRead

/-- `a` with the piece of state that location `r` names taken from `b`. A table entry is seen only in a valid table (R38), so
there the table becomes valid, with what the other entries showed. -/
def Block.withLocation (a b : Block) : Reg → Block
  | .cmd | .status => a
  | .width => { a with width := b.width }
  | .poly => { a with poly := b.poly }
  | .flags => { a with refin := b.refin, refout := b.refout }
  | .init => { a with init := b.init }
  | .xorout => { a with xorout := b.xorout }
  | .operand => { a with operand := b.operand }
  | .result => { a with result := b.result }
  | .table i => a.storeTable fun j => if j = i then b.readValue (.table i) else a.readValue (.table j)

theorem Block.withLocation_readValue_same (a b : Block) {r : Reg} (hr : r ≠ .status) :
    (a.withLocation b r).readValue r = b.readValue r := by
  cases r with
  | status => contradiction
  | table i => simp [Block.withLocation, Block.readValue]
  | _ => rfl

theorem Block.withLocation_readValue_of_ne (a b : Block) {r r' : Reg} (hne : r ≠ r')
    (hvalid : r = .status → (∃ i, r' = .table i) → a.valid = true) :
    (a.withLocation b r').readValue r = a.readValue r := by
  cases r' with
  | cmd | status => rfl
  | table i =>
    cases r with
    | status => simp [Block.withLocation, Block.readValue, Block.statusWord, Block.busy, hvalid rfl ⟨i, rfl⟩]
    | table j =>
      have hji : j ≠ i := fun h => hne (congrArg _ h)
      simp [Block.withLocation, Block.readValue, hji]
    | _ => rfl
  | _ =>
    cases r with
    | status | table => rfl
    | _ => simp_all [Block.withLocation, Block.readValue, Block.flagsWord]

/-- Settles O30: R17's map is a bijection; of two locations each can be given the value it has in another state; and a write
reaches the state of its own location and, of what is read elsewhere, only STATUS and VALID. -/
theorem locationsDoNotAlias : Obligations.LocationsDoNotAlias := by
  refine ⟨rfl, Reg.offset_table_toNat, fun _ _ h => Reg.offset_injective h, fun off r => ?_, ?_, ?_⟩
  · simp [served_eq_some]
  · intro a b r r' hne hstatus hvalid
    refine ⟨a.withLocation b r', ?_, ?_⟩
    · simp [a.withLocation_readValue_of_ne b hne hvalid]
    · simp [a.withLocation_readValue_same b hstatus]
  · intro s v rest r
    refine ⟨_, step_writeAccess s r v rest, ?_, fun i => s.block.write_entry r v i, ?_⟩
    · intro r' hr' hne
      have hstatus : r' ≠ .status := by rintro rfl; simp at hr'
      have htable : ∀ i, r' ≠ .table i := by rintro i rfl; simp at hr'
      simp [s.block.write_readValue v hne hstatus htable]
    · rintro rfl i
      simp [Block.write, s.block.clearOnes_readValue v (r := .table i) (by simp)]
end Sys2Proof.Machine

namespace Sys2Proof.Machine

/-! ## O31, O33, O34: the sticky error bits, VALID and DONE over every step -/

/-- A STATUS write clears the error bits it has a 1 for, at their codes (R28, R117). -/
@[simp] theorem Block.clearOnes_errBit (b : Block) (v : Word) (e : Err) :
    (b.clearOnes v).errBit e = (b.errBit e && !v.getLsbD e.code) := by
  cases e <;> rfl

@[simp] theorem Block.accept_errBit (b : Block) (i : Instr) (e : Err) : (b.accept i).errBit e = b.errBit e := by
  cases e <;> rfl

@[simp] theorem Block.afterReset_errBit (draw : Nat) (e : Err) : (Block.afterReset draw).errBit e = false := by
  cases e <;> rfl

/-- A completion raises no error (R121). -/
@[simp] theorem effectOf_finish_errBit (i : Instr) (b : Block) (e : Err) :
    (effectOf i b).finish.errBit e = b.errBit e := by
  cases i <;> cases e <;> rfl

/-- The locations whose writes are dropped with BUSY_ERR while a command is pending are those R54 guards (R141). -/
theorem Reg.mem_busyGuarded {r : Reg} :
    r ∈ [Reg.cmd, .width, .poly, .flags, .init, .xorout, .operand] ↔
      r ≠ .status ∧ r ≠ .result ∧ ∀ i, r ≠ .table i := by
  cases r <;> simp

/-- R117's cause of an error, for a write of `v` to `r`. -/
def Block.WriteCauses (b : Block) (r : Reg) (v : Word) : Err → Prop
  | .cfg => b.pend = none ∧ r = .width ∧ ¬(8 ≤ v.toNat ∧ v.toNat ≤ 32)
  | .cmd => b.pend = none ∧ r = .cmd ∧ ∀ i, decode v ≠ .command i
  | .busy => b.pend ≠ none ∧ r ∈ [Reg.cmd, .width, .poly, .flags, .init, .xorout, .operand]
  | .acc => r = .result ∨ ∃ i, r = .table i

/-- An error bit after a store: set by an illegal WIDTH or an illegal command word, and else kept. -/
theorem Block.writeIdle_errBit (b : Block) (r : Reg) (v : Word) (e : Err) (hidle : b.pend = none)
    (hr : r ≠ .status ∧ r ≠ .result ∧ ∀ i, r ≠ .table i) :
    (b.writeIdle v r).errBit e = true ↔ b.WriteCauses r v e ∨ b.errBit e = true := by
  cases r with
  | cmd =>
    obtain ⟨why, hword, hissue⟩ | ⟨i, hword, hissue⟩ := b.issue_cases v <;>
      cases e <;> simp [Block.writeIdle, hissue, Block.WriteCauses, hword, hidle]
  | width =>
    obtain ⟨hlow, hhigh, hwidth⟩ | ⟨hillegal, hwidth⟩ := b.writeWidth_cases v
    · cases e <;> simp [Block.writeIdle, hwidth, Block.WriteCauses, hlow, hhigh, hidle, Block.errBit]
    · cases e <;> simp [Block.writeIdle, hwidth, Block.WriteCauses, hillegal, hidle]
  | status | result | table => simp at hr
  | _ => cases e <;> simp [Block.writeIdle, Block.WriteCauses, hidle, Block.errBit]

/-- An error bit after a write: its cause, or kept but by the STATUS write that clears it. -/
theorem Block.write_errBit (b : Block) (r : Reg) (v : Word) (e : Err) :
    (b.write r v).errBit e = true ↔
      b.WriteCauses r v e ∨ (b.errBit e = true ∧ (r = .status → v.getLsbD e.code = false)) := by
  obtain ⟨rfl, hw⟩ | ⟨hr, hw⟩ | ⟨hr, ⟨hbusy, hw⟩ | ⟨hidle, hw⟩⟩ := b.write_cases r v <;> rw [hw]
  · cases e <;> simp [Block.WriteCauses]
  · cases e <;> obtain rfl | ⟨i, rfl⟩ := hr <;> simp [Block.WriteCauses]
  · obtain ⟨i, hpend⟩ := b.busy_eq_true.mp hbusy
    have hguarded := Reg.mem_busyGuarded.mpr hr
    cases e <;> simp [Block.WriteCauses, hguarded, hpend, hr, -List.mem_cons]
  · rw [b.writeIdle_errBit r v e (by simpa using hidle) hr]
    simp [hr]

/-- An error bit after a read: ACC_ERR for a table read while VALID is 0, and else kept. -/
theorem Block.afterRead_errBit (b : Block) (r : Reg) (e : Err) :
    (b.afterRead r).errBit e = true ↔
      (e = .acc ∧ b.valid = false ∧ ∃ i, r = .table i) ∨ b.errBit e = true := by
  cases r with
  | table i =>
    cases hvalid : b.valid <;> simp [Block.afterRead, hvalid, or_comm, @eq_comm _ e]
  | _ => simp [Block.afterRead]

section NextEvent
variable {s : State}

theorem State.nextAccepts_of_write {r : Reg} {v : Word} (h : s.agenda.head? = some (.host (r.writeAccess v)))
    (i : Instr) : s.NextAccepts i ↔ s.block.pend = none ∧ r = .cmd ∧ decode v = .command i := by
  simp [State.nextAccepts_iff, h]

/-- No accepted write of WIDTH, POLY or FLAGS (R25) comes next when the write that does is none. -/
theorem State.not_nextStoresModel_of_write {r : Reg} {v : Word}
    (h : s.agenda.head? = some (.host (r.writeAccess v))) :
    (∀ v', ¬s.NextWrites .poly v' ∧ ¬s.NextWrites .flags v'
        ∧ ¬(s.NextWrites .width v' ∧ 8 ≤ v'.toNat ∧ v'.toNat ≤ 32)) ↔
      r ≠ .poly ∧ r ≠ .flags ∧ ¬(r = .width ∧ 8 ≤ v.toNat ∧ v.toNat ≤ 32) := by
  simp only [State.nextWrites_iff, h, Option.some.injEq, Event.host.injEq, Reg.writeAccess_inj]
  constructor
  · intro hnone
    simpa using hnone v
  · rintro ⟨hpoly, hflags, hwidth⟩ v'
    refine ⟨fun hr => hpoly hr.1, fun hr => hflags hr.1, ?_⟩
    rintro ⟨⟨rfl, rfl⟩, hlegal⟩
    exact hwidth ⟨rfl, hlegal⟩

theorem State.nextCauses_of_write {r : Reg} {v : Word} (h : s.agenda.head? = some (.host (r.writeAccess v)))
    (e : Err) : s.NextCauses e ↔ s.block.WriteCauses r v e := by
  cases e <;> simp [State.NextCauses, State.nextWrites_iff, State.nextReads_iff, h, Block.WriteCauses]

theorem State.nextCauses_of_read {r : Reg} (h : s.agenda.head? = some (.host r.readAccess)) (e : Err) :
    s.NextCauses e ↔ e = .acc ∧ s.block.valid = false ∧ ∃ i, r = .table i := by
  cases e <;> simp [State.NextCauses, State.nextWrites_iff, State.nextReads_iff, h]

/-- Only a host access that names a location causes an error. -/
theorem State.not_nextCauses (h : ∀ a, s.agenda.head? = some (.host a) → a.NamesNoLocation) (e : Err) :
    ¬s.NextCauses e := by
  have hread : ∀ r, ¬s.NextReads r := fun r hr => (h _ (State.nextReads_iff.mp hr)).1 r rfl
  have hwrite : ∀ r v, ¬s.NextWrites r v := fun r v hw => (h _ (State.nextWrites_iff.mp hw)).2 r v rfl
  cases e <;> simp [State.NextCauses, hread, hwrite]

end NextEvent

/-- Settles O31, by the step's kinds: a read or a write has the causes of R117, and nothing else sets an error bit. -/
theorem errorBitsAreStickyAndCaused : Obligations.ErrorBitsAreStickyAndCaused := by
  intro s t e hstep
  have hblock := blockStep_of_step hstep
  generalize t.block = b at hblock
  simp only [State.nextWrites_iff, State.nextResets_iff]
  cases hblock with
  | unserved h ha =>
    have hnc := State.not_nextCauses (s := s) (by simpa [h] using ha) e
    simp [h, hnc, ha.2 .status]
  | read h => simp [Block.afterRead_errBit, State.nextCauses_of_read h, h]
  | write h => simp [Block.write_errBit, State.nextCauses_of_write h, h]
  | completion hpend h =>
    have hnc := State.not_nextCauses (s := s) (by obtain h | h := h <;> simp [h]) e
    obtain h | h := h <;> simp [h, hnc]
  | reset h =>
    have hnc := State.not_nextCauses (s := s) (by simp [h]) e
    simp [h, hnc]
  | idle h =>
    have hnc := State.not_nextCauses (s := s) (by simp [h]) e
    simp [h, hnc]

/-- VALID after a write: kept, but by the writes that clear it (R25). -/
theorem Block.write_valid (b : Block) (r : Reg) (v : Word) :
    (b.write r v).valid = true ↔ b.valid = true ∧
      ¬(b.pend = none ∧ r = .cmd ∧ decode v = .command .generate)
        ∧ (b.pend = none → r ≠ .poly ∧ r ≠ .flags ∧ ¬(r = .width ∧ 8 ≤ v.toNat ∧ v.toNat ≤ 32)) := by
  obtain ⟨rfl, hw⟩ | ⟨hr, hw⟩ | ⟨hr, ⟨hbusy, hw⟩ | ⟨hidle, hw⟩⟩ := b.write_cases r v <;> rw [hw]
  · simp
  · obtain rfl | ⟨i, rfl⟩ := hr <;> simp
  · obtain ⟨i, hpend⟩ := b.busy_eq_true.mp hbusy
    simp [hpend]
  · have hpend := b.busy_eq_false.mp hidle
    cases r with
    | cmd =>
      obtain ⟨why, hword, hissue⟩ | ⟨i, hword, hissue⟩ := b.issue_cases v <;>
        simp [Block.writeIdle, hissue, hword, hpend, and_comm]
    | width =>
      obtain ⟨hlow, hhigh, hwidth⟩ | ⟨hillegal, hwidth⟩ := b.writeWidth_cases v
      · simp [Block.writeIdle, hwidth, hlow, hhigh, hpend]
      · simp [Block.writeIdle, hwidth, hillegal]
    | status | result | table => simp at hr
    | _ => simp [Block.writeIdle, hpend]

@[simp] theorem Block.afterRead_valid (b : Block) (r : Reg) : (b.afterRead r).valid = b.valid := by
  obtain h | ⟨_, -, -, h⟩ := b.afterRead_cases r <;> simp [h]

@[simp] theorem Block.afterRead_done (b : Block) (r : Reg) : (b.afterRead r).done = b.done := by
  obtain h | ⟨_, -, -, h⟩ := b.afterRead_cases r <;> simp [h]

/-- VALID after a command's effect: set by GENERATE, cleared by LDDEF, kept by every other (R25). -/
theorem effectOf_valid (i : Instr) (b : Block) :
    (effectOf i b).valid = true ↔ i = .generate ∨ (b.valid = true ∧ i ≠ .lddef) := by
  cases i <;> simp [effectOf]

/-- Settles O33, by the step's kinds: a write clears VALID as `Block.write_valid` says, a completion moves it by its effect. -/
theorem validChangesOnlyByItsEvents : Obligations.ValidChangesOnlyByItsEvents := by
  intro s t hstep
  have hblock := blockStep_of_step hstep
  generalize t.block = b at hblock
  simp only [State.nextResets_iff, State.nextCompletes_iff]
  cases hblock with
  | unserved h ha =>
    simp [State.nextWrites_iff, State.nextAccepts_iff, h, ha.2 .cmd, ha.2 .poly, ha.2 .flags, ha.2 .width]
  | read h => simp [State.nextWrites_iff, State.nextAccepts_iff, h]
  | write h =>
    rw [Block.write_valid, State.not_nextStoresModel_of_write h]
    simp [State.nextAccepts_of_write h, h]
  | completion hpend h =>
    obtain h | h := h <;> simp [State.nextWrites_iff, State.nextAccepts_iff, h, hpend, effectOf_valid]
  | reset h => simp [h]
  | idle h hpend => simp [State.nextWrites_iff, State.nextAccepts_iff, h, hpend]

/-- DONE after a write: kept, but by an acceptance and by the STATUS write that clears it (R26). -/
theorem Block.write_done (b : Block) (r : Reg) (v : Word) :
    (b.write r v).done = true ↔ b.done = true ∧ (∀ i, ¬(b.pend = none ∧ r = .cmd ∧ decode v = .command i))
      ∧ (r = .status → v.getLsbD 2 = false) := by
  obtain ⟨rfl, hw⟩ | ⟨hr, hw⟩ | ⟨hr, ⟨hbusy, hw⟩ | ⟨hidle, hw⟩⟩ := b.write_cases r v <;> rw [hw]
  · simp
  · obtain rfl | ⟨i, rfl⟩ := hr <;> simp
  · obtain ⟨i, hpend⟩ := b.busy_eq_true.mp hbusy
    simp [hpend, hr]
  · have hpend := b.busy_eq_false.mp hidle
    cases r with
    | cmd =>
      obtain ⟨why, hword, hissue⟩ | ⟨i, hword, hissue⟩ := b.issue_cases v <;>
        simp [Block.writeIdle, hissue, hword, hpend]
    | width =>
      obtain ⟨-, -, hwidth⟩ | ⟨-, hwidth⟩ := b.writeWidth_cases v <;> simp [Block.writeIdle, hwidth]
    | status | result | table => simp at hr
    | _ => simp [Block.writeIdle]

/-- Settles O34, by the step's kinds: a write clears DONE as `Block.write_done` says, and every completion sets it. -/
theorem doneChangesOnlyByItsEvents : Obligations.DoneChangesOnlyByItsEvents := by
  intro s t hstep
  have hblock := blockStep_of_step hstep
  generalize t.block = b at hblock
  simp only [State.nextWrites_iff, State.nextResets_iff, State.nextCompletes_iff]
  cases hblock with
  | unserved h ha => simp [State.nextAccepts_iff, h, ha.2 .cmd, ha.2 .status]
  | read h => simp [State.nextAccepts_iff, h]
  | write h => simp [State.nextAccepts_of_write h, h, Block.write_done]
  | completion hpend h => obtain h | h := h <;> simp [State.nextAccepts_iff, h, hpend]
  | reset h => simp [h]
  | idle h hpend => simp [State.nextAccepts_iff, h, hpend]

end Sys2Proof.Machine

namespace Sys2Proof.Machine

/-! ## O28: the accesses that are served -/

/-- The alignment check of R50, as a number. -/
theorem extractLsb'_two_eq_zero_iff {off : BitVec 11} : off.extractLsb' 0 2 = 0#2 ↔ off.toNat % 4 = 0 := by
  simp [← BitVec.toNat_inj]

theorem mapped_eq_true_iff {off : BitVec 11} :
    mapped off = true ↔ off.toNat ≤ 0x020 ∨ (0x400 ≤ off.toNat ∧ off.toNat ≤ 0x7FC) := by
  simp [mapped]

/-- Every aligned mapped offset is a location's: R53 and R54 leave none of them out. -/
theorem Reg.ofOffset_ne_none {off : BitVec 11} (halign : off.toNat % 4 = 0) (hmapped : mapped off = true) :
    Reg.ofOffset off ≠ none := by
  rw [mapped_eq_true_iff] at hmapped
  unfold Reg.ofOffset
  split_ifs
  case neg => bv_omega
  all_goals exact Option.some_ne_none _

/-- An access is served exactly when it passes the three checks of R50. -/
theorem served_ne_none_iff {size : Size} {off : BitVec 11} :
    served size off ≠ none ↔
      size = .word ∧ off.toNat % 4 = 0 ∧ (off.toNat ≤ 0x020 ∨ (0x400 ≤ off.toNat ∧ off.toNat ≤ 0x7FC)) := by
  rw [← mapped_eq_true_iff, ← extractLsb'_two_eq_zero_iff]
  unfold served
  split_ifs with hsize halign hmapped
  · simp [hsize]
  · simp [halign]
  · simp [hmapped]
  · rw [not_not] at hsize halign
    rw [Bool.not_eq_false] at hmapped
    have hloc := Reg.ofOffset_ne_none (extractLsb'_two_eq_zero_iff.mp halign) hmapped
    exact iff_of_true hloc ⟨hsize, halign, hmapped⟩

/-- Settles O28, by the location the access is served at: none is BusError, and a location answers its read and its write. -/
theorem unservedAccessesReturnBusError : Obligations.UnservedAccessesReturnBusError := by
  intro s off size a rest ha
  rw [← served_ne_none_iff, not_not]
  refine ⟨fun hnone => ?_, fun hserved => ?_⟩
  · rw [step_host rfl]
    obtain rfl | ⟨v, rfl⟩ := ha
    · simp [State.hostStep_read, portRead, hnone]
    · simp [State.hostStep_write, portWrite, hnone]
  · obtain ⟨r, hr⟩ := Option.ne_none_iff_exists'.mp hserved
    obtain ⟨rfl, rfl⟩ := served_eq_some.mp hr
    obtain rfl | ⟨v, rfl⟩ := ha
    · exact ⟨_, step_readAccess s r rest, by simp, by simp⟩
    · exact ⟨_, step_writeAccess s r v rest, by simp, by simp⟩
end Sys2Proof.Machine

namespace Sys2Proof

/-! ## O3: the words that decode are the encodings, field by field -/

/-- The OP value of a command's row of the opcode map (R70). -/
def Instr.opcode : Instr → BitVec 8
  | .nop => 0x00
  | .reflect _ => 0x01
  | .mask => 0x02
  | .byterem _ => 0x03
  | .generate => 0x04
  | .lddef => 0x05

/-- The IDX value of a command's word: BYTEREM's operand, and 0 in every other row (R67, R71). -/
def Instr.idx : Instr → BitVec 8
  | .byterem idx => idx
  | .nop | .reflect _ | .mask | .generate | .lddef => 0

/-- The BC value of a command's word: REFLECT's operand, and 0 in every other row (R68, R71). -/
def Instr.bc : Instr → BitVec 6
  | .reflect bc => bc
  | .nop | .mask | .byterem _ | .generate | .lddef => 0

/-- The four fields of a command's encoding are the command's (R70, R76). -/
theorem fields_encode (i : Instr) :
    opField (encode i) = i.opcode ∧ idxField (encode i) = i.idx ∧ bcField (encode i) = i.bc
      ∧ rsvField (encode i) = 0 := by
  cases i with
  | reflect bc => revert bc; decide
  | byterem idx => revert idx; decide
  | _ => decide

/-- A word is a command's encoding exactly when its four fields are the command's. -/
theorem encode_eq_iff {i : Instr} {v : Word} :
    encode i = v ↔ opField v = i.opcode ∧ idxField v = i.idx ∧ bcField v = i.bc ∧ rsvField v = 0 := by
  constructor
  · rintro rfl
    exact fields_encode i
  · rintro ⟨hop, hidx, hbc, hrsv⟩
    obtain ⟨hop', hidx', hbc', hrsv'⟩ := fields_encode i
    rw [← word_eq_fields (encode i), ← word_eq_fields v, hop, hop', hidx, hidx', hbc, hbc', hrsv, hrsv']

/-- The decoder reads a command off the four fields (R70, R71). -/
theorem decode_eq_command_iff_fields {v : Word} {i : Instr} :
    decode v = .command i ↔ i.wellFormed = true
      ∧ opField v = i.opcode ∧ idxField v = i.idx ∧ bcField v = i.bc ∧ rsvField v = 0 := by
  constructor
  · intro h
    unfold decode at h
    split_ifs at h
    all_goals
      obtain ⟨hzero, rfl⟩ := whenUnusedZero_command.mp h
      simp_all [Instr.wellFormed, Instr.opcode, Instr.idx, Instr.bc]
  · rintro ⟨hwf, hop, hidx, hbc, hrsv⟩
    cases i <;> simp_all [decode, whenUnusedZero, Instr.wellFormed, Instr.opcode, Instr.idx, Instr.bc]

/-- The decoder and the encoder are inverse on the well-formed commands. -/
theorem decode_eq_command_iff {v : Word} {i : Instr} :
    decode v = .command i ↔ i.wellFormed = true ∧ encode i = v := by
  rw [decode_eq_command_iff_fields, encode_eq_iff]

/-- A field that the mask keeps whole is read through the mask. -/
theorem extractLsb'_and_of_allOnes {v m : Word} {start len : Nat} (h : m.extractLsb' start len = BitVec.allOnes len) :
    (v &&& m).extractLsb' start len = v.extractLsb' start len := by
  rw [BitVec.extractLsb'_and, h, BitVec.and_allOnes]

/-- A word with the fixed bits of REFLECT's row (R71) is the encoding of REFLECT with the word's own BC. -/
theorem encode_reflect_of_row {v : Word} (h : v &&& 0xFFC0FFFF#32 = 0x00000001#32) :
    encode (.reflect (bcField v)) = v := by
  have hop : opField v = 0x01 := (extractLsb'_and_of_allOnes (by decide)).symm.trans (congrArg opField h)
  have hidx : idxField v = 0 := (extractLsb'_and_of_allOnes (by decide)).symm.trans (congrArg idxField h)
  have hrsv : rsvField v = 0 := (extractLsb'_and_of_allOnes (by decide)).symm.trans (congrArg rsvField h)
  exact encode_eq_iff.mpr ⟨hop, hidx, rfl, hrsv⟩

/-- A word with the fixed bits of BYTEREM's row (R71) is the encoding of BYTEREM with the word's own IDX. -/
theorem encode_byterem_of_row {v : Word} (h : v &&& 0xFFFF00FF#32 = 0x00000003#32) :
    encode (.byterem (idxField v)) = v := by
  have hop : opField v = 0x03 := (extractLsb'_and_of_allOnes (by decide)).symm.trans (congrArg opField h)
  have hbc : bcField v = 0 := (extractLsb'_and_of_allOnes (by decide)).symm.trans (congrArg bcField h)
  have hrsv : rsvField v = 0 := (extractLsb'_and_of_allOnes (by decide)).symm.trans (congrArg rsvField h)
  exact encode_eq_iff.mpr ⟨hop, rfl, hbc, hrsv⟩

/-- Settles O3: the words of R71's rows are the encodings of well-formed commands, and the decoder is a function. -/
theorem legalWordsNameExactlyOneCommand : Obligations.LegalWordsNameExactlyOneCommand := by
  intro v
  constructor
  · intro hrow
    have hcommand : ∃ i, decode v = .command i := by
      simp only [decode_eq_command_iff]
      obtain h | ⟨h, hbc⟩ | h | h | h | h := hrow
      · exact ⟨.nop, rfl, h.symm⟩
      · exact ⟨.reflect (bcField v), decide_eq_true hbc, encode_reflect_of_row h⟩
      · exact ⟨.mask, rfl, h.symm⟩
      · exact ⟨.byterem (idxField v), rfl, encode_byterem_of_row h⟩
      · exact ⟨.generate, rfl, h.symm⟩
      · exact ⟨.lddef, rfl, h.symm⟩
    obtain ⟨i, hi⟩ := hcommand
    exact ⟨i, hi, fun j hj => Decoded.command.inj (hj.symm.trans hi)⟩
  · rintro ⟨i, hi, -⟩
    obtain ⟨hwf, rfl⟩ := decode_eq_command_iff.mp hi
    cases i with
    | reflect bc =>
      obtain ⟨-, -, hbc, -⟩ := fields_encode (.reflect bc)
      exact .inr (.inl ⟨Laws.MatchesRow.reflect bc, (congrArg BitVec.toNat hbc).trans_le (of_decide_eq_true hwf)⟩)
    | byterem idx => exact .inr (.inr (.inr (.inl (Laws.MatchesRow.byterem idx))))
    | _ => simp [encode]

end Sys2Proof

namespace Sys2Proof.Machine

/-! ## O5: the words the mnemonic lines write -/

/-- A mnemonic line is refused, or writes to CMD the encoding of a well-formed command (R76). -/
theorem Mnemonic.expand_eq_some {m : Mnemonic} {l : Line} (h : m.expand = some l) :
    ∃ i : Instr, i.wellFormed = true ∧ l = .wr (.reg .cmd) (encode i) := by
  cases m with
  | nop => exact ⟨.nop, rfl, (Option.some.inj h).symm⟩
  | reflect bc =>
    simp only [Mnemonic.expand] at h
    split_ifs at h with hbc
    have hword : BitVec.ofNat 32 bc = (BitVec.ofNat 6 bc).setWidth 32 := by bv_omega
    have hbound : (BitVec.ofNat 6 bc).toNat ≤ 32 := by bv_omega
    exact ⟨.reflect (BitVec.ofNat 6 bc), decide_eq_true hbound, by simp [encode, ← hword, ← Option.some.inj h]⟩
  | mask => exact ⟨.mask, rfl, (Option.some.inj h).symm⟩
  | byterem idx =>
    simp only [Mnemonic.expand] at h
    split_ifs at h with hidx
    have hword : BitVec.ofNat 32 idx = (BitVec.ofNat 8 idx).setWidth 32 := by bv_omega
    exact ⟨.byterem (BitVec.ofNat 8 idx), rfl, by simp [encode, ← hword, ← Option.some.inj h]⟩
  | generate => exact ⟨.generate, rfl, (Option.some.inj h).symm⟩
  | lddef => exact ⟨.lddef, rfl, (Option.some.inj h).symm⟩

/-- Settles O5: the lines are R76's by definition, and each word is an encoding, which decodes to its command. -/
theorem mnemonicLinesWriteTheirWords : Obligations.MnemonicLinesWriteTheirWords := by
  refine ⟨rfl, rfl, rfl, rfl, fun _ h => if_pos h, fun _ h => if_neg (by omega), fun _ h => if_pos h,
    fun _ h => if_neg (by omega), fun m l h => ?_⟩
  obtain ⟨i, hwf, rfl⟩ := Mnemonic.expand_eq_some h
  exact ⟨encode i, i, rfl, decode_eq_command_iff.mpr ⟨hwf, rfl⟩⟩

/-! ## O10: illegal words -/

/-- R72's list: a reserved OP, a nonzero RSV, an unused IDX or BC that is not 0, or a bit count above 32. -/
def ListedIllegal (v : Word) : Prop :=
  6 ≤ (opField v).toNat ∨ rsvField v ≠ 0 ∨ (opField v ≠ 0x03#8 ∧ idxField v ≠ 0)
    ∨ (opField v ≠ 0x01#8 ∧ bcField v ≠ 0) ∨ (opField v = 0x01#8 ∧ 33 ≤ (bcField v).toNat)

/-- A word R72 does not list is a command's: OP selects its row, and the unused fields are 0. -/
theorem exists_command_of_not_listedIllegal {v : Word} (h : ¬ListedIllegal v) : ∃ i, decode v = .command i := by
  simp only [ListedIllegal, not_or, not_and, not_not, not_le] at h
  obtain ⟨hop, hrsv, hidx, hbc, hbound⟩ := h
  have hrow : opField v = 0 ∨ opField v = 1 ∨ opField v = 2 ∨ opField v = 3 ∨ opField v = 4 ∨ opField v = 5 := by
    bv_omega
  simp only [decode_eq_command_iff_fields]
  obtain h | h | h | h | h | h := hrow <;> rw [h] at hidx hbc hbound ⊢
  · exact ⟨.nop, rfl, rfl, hidx (by decide), hbc (by decide), hrsv⟩
  · exact ⟨.reflect (bcField v), decide_eq_true (Nat.le_of_lt_succ (hbound rfl)), rfl, hidx (by decide), rfl, hrsv⟩
  · exact ⟨.mask, rfl, rfl, hidx (by decide), hbc (by decide), hrsv⟩
  · exact ⟨.byterem (idxField v), rfl, rfl, rfl, hbc (by decide), hrsv⟩
  · exact ⟨.generate, rfl, rfl, hidx (by decide), hbc (by decide), hrsv⟩
  · exact ⟨.lddef, rfl, rfl, hidx (by decide), hbc (by decide), hrsv⟩

/-- No command's encoding is a word R72 lists. -/
theorem not_listedIllegal_of_command {v : Word} {i : Instr} (h : decode v = .command i) : ¬ListedIllegal v := by
  obtain ⟨hwf, hop, hidx, hbc, hrsv⟩ := decode_eq_command_iff_fields.mp h
  simp only [ListedIllegal, hop, hidx, hbc, hrsv]
  cases i with
  | reflect bc =>
    have hbc : ¬33 ≤ bc.toNat := Nat.not_le_of_lt (Nat.lt_succ_of_le (of_decide_eq_true hwf))
    simp [Instr.opcode, Instr.idx, Instr.bc, hbc]
  | _ => simp [Instr.opcode, Instr.idx, Instr.bc]

/-- Settles O10: the words R72 lists are those that do not decode, and an issue raises CMD_ERR exactly on those. -/
theorem illegalWordsOnlyRaiseCmdErr : Obligations.IllegalWordsOnlyRaiseCmdErr := by
  intro s v rest hidle
  have hwrite : s.block.write .cmd v = s.block.issue v := Block.write_idle hidle (by simp) v
  rw [step_writeAccess, hwrite]
  obtain ⟨why, hword, hissue⟩ | ⟨i, hword, hissue⟩ := s.block.issue_cases v
  · refine ⟨fun _ => by rw [hissue, Block.raise_cmd], fun hlegal => ?_⟩
    obtain ⟨i, hi⟩ := exists_command_of_not_listedIllegal hlegal
    cases hword.symm.trans hi
  · refine ⟨fun hillegal => absurd hillegal (not_listedIllegal_of_command hword), fun _ => ?_⟩
    obtain ⟨-, henc⟩ := decode_eq_command_iff.mp hword
    exact ⟨i, _, rfl, by simp [hissue], henc⟩

end Sys2Proof.Machine

namespace Sys2Proof.Machine

/-! ## O9, O36: the acceptance of a command, and the accesses made while it is pending -/

/-- STATUS.BUSY is bit 0 (R29). -/
theorem Block.statusWord_getLsbD_zero (b : Block) : b.statusWord.getLsbD 0 = b.busy := by
  simp only [Block.statusWord, BitVec.getLsbD_or, getLsbD_fieldAt]
  simp

/-- The write of a legal word to CMD while nothing is pending is the acceptance of its command (R80, R82). -/
theorem Block.write_cmd_of_command {b : Block} {v : Word} {i : Instr} (hidle : b.pend = none)
    (hword : decode v = .command i) : b.write .cmd v = b.accept i := by
  rw [Block.write_idle hidle (by simp)]
  simp [Block.writeIdle, Block.issue, hword]

/-- Settles O9: the step is the acceptance, whose effect is R82's record. -/
theorem acceptanceChangesOnlyPendDoneValid : Obligations.AcceptanceChangesOnlyPendDoneValid := by
  intro s v i rest hidle hword
  refine ⟨s.block.accept i, ?_, rfl, ?_⟩
  · rw [step_writeAccess, Block.write_cmd_of_command hidle hword]
  · rw [Block.statusWord_getLsbD_zero]
    rfl

/-- Equal but for DONE and the error bits, which are the bits of STATUS that a write of STATUS clears (R28). -/
def Block.SameButClearable (a b : Block) : Prop :=
  { a with done := b.done, cfgErr := b.cfgErr, cmdErr := b.cmdErr, busyErr := b.busyErr, accErr := b.accErr } = b

theorem Block.SameButClearable.refl (a : Block) : a.SameButClearable a := rfl

theorem Block.SameButClearable.trans {a b c : Block} (hab : a.SameButClearable b) (hbc : b.SameButClearable c) :
    a.SameButClearable c := by
  unfold Block.SameButClearable at *
  rw [← hbc, ← hab]

theorem Block.SameButClearable.pend_eq {a b : Block} (h : a.SameButClearable b) : b.pend = a.pend :=
  (congrArg Block.pend h).symm

theorem Block.sameButClearable_raise (b : Block) (e : Err) : b.SameButClearable (b.raise e) := rfl

theorem Block.sameButClearable_clearOnes (b : Block) (v : Word) : b.SameButClearable (b.clearOnes v) := rfl

/-- While a command is pending a write clears bits of STATUS, or is dropped with an error (R54, R83). -/
theorem Block.sameButClearable_write {b : Block} (hbusy : b.pend ≠ none) (r : Reg) (v : Word) :
    b.SameButClearable (b.write r v) := by
  obtain ⟨-, hw⟩ | ⟨-, hw⟩ | ⟨-, ⟨-, hw⟩ | ⟨hidle, -⟩⟩ := b.write_cases r v
  · exact hw ▸ b.sameButClearable_clearOnes v
  · exact hw ▸ b.sameButClearable_raise .acc
  · exact hw ▸ b.sameButClearable_raise .busy
  · exact absurd (b.busy_eq_false.mp hidle) hbusy

theorem Block.sameButClearable_afterRead (b : Block) (r : Reg) : b.SameButClearable (b.afterRead r) := by
  obtain hr | ⟨_, -, -, hr⟩ := b.afterRead_cases r <;> rw [hr]
  · exact .refl b
  · exact b.sameButClearable_raise .acc

/-- While a command is pending a host access changes at most DONE and the error bits (R83). -/
theorem Access.sameButClearable_perform {b : Block} (hbusy : b.pend ≠ none) (a : Access) :
    b.SameButClearable (a.perform b).2 := by
  obtain ⟨r, rfl⟩ | ⟨r, v, rfl⟩ | ha := a.cases
  · simpa using b.sameButClearable_afterRead r
  · simpa using Block.sameButClearable_write hbusy r v
  · obtain ⟨answer, hperform⟩ := Access.perform_of_namesNoLocation ha
    simpa [hperform] using Block.SameButClearable.refl b

/-- Any host accesses made while a command is pending are all taken, and change at most DONE and the error bits of CRCTG. -/
theorem core_run_accesses_of_pending (accesses : List Access) (s : State) (rest : List Event)
    (hbusy : s.block.pend ≠ none) :
    ∃ t : State, Sys2Proof.core.run accesses.length { s with agenda := accesses.map .host ++ rest } = .next t
      ∧ t.agenda = rest ∧ s.block.SameButClearable t.block := by
  induction accesses generalizing s with
  | nil => exact ⟨_, rfl, rfl, .refl s.block⟩
  | cons a accesses ih =>
    have hfirst : s.block.SameButClearable (s.hostStep a).block := a.sameButClearable_perform hbusy
    obtain ⟨t, hrun, hagenda, hlater⟩ := ih (s.hostStep a) (hfirst.pend_eq ▸ hbusy)
    exact ⟨t, (core_run_succ (step_host rfl)).trans hrun, hagenda, hfirst.trans hlater⟩

/-- Settles O36: the operands and PEND are among what the accesses keep. -/
theorem operandsAreHeldWhilePending : Obligations.OperandsAreHeldWhilePending := by
  intro accesses s rest hbusy
  obtain ⟨t, hrun, hagenda, hblock⟩ := core_run_accesses_of_pending accesses s rest hbusy
  refine ⟨t, hrun, hagenda, ?_⟩
  rw [← hblock]
  exact ⟨rfl, rfl, rfl, rfl, rfl, rfl, rfl, rfl⟩

end Sys2Proof.Machine

namespace Sys2Proof.Machine

/-! ## O47, O48: the bit reflector, from the loop of R89 to the bits of R90 and the properties of R91 -/

/-- An iteration copies the lowest bit of the shifting copy to position `bc - 1 - i` of the result, and touches no other
bit of it (R89). -/
theorem getLsbD_reflectRound_fst (bc : Nat) (st : Word × Word) (i : Nat) {j : Nat} (hj : j < 32) :
    (reflectRound bc st i).1.getLsbD j = if j = bc - 1 - i then st.2.getLsbD 0 else st.1.getLsbD j := by
  have hbit : (1#32 <<< (bc - 1 - i)).getLsbD j = decide (j = bc - 1 - i) := by
    rw [← BitVec.twoPow_eq, BitVec.getLsbD_twoPow, ← Bool.decide_and, decide_eq_decide]
    omega
  simp only [reflectRound]
  cases st.2.getLsbD 0 with
  | true =>
    rw [if_pos rfl, BitVec.getLsbD_or, hbit]
    by_cases hp : j = bc - 1 - i <;> simp [hp]
  | false =>
    rw [if_neg Bool.false_ne_true, BitVec.getLsbD_and, BitVec.getLsbD_not, hbit]
    by_cases hp : j = bc - 1 - i <;> simp [hp, hj]

/-- The shifting copy after `n` iterations (R89). -/
theorem foldl_reflectRound_snd (value : Word) (bc n : Nat) :
    ((List.range n).foldl (reflectRound bc) (value, value)).2 = value >>> n := by
  induction n with
  | zero => simp
  | succ n ih => simp [List.range_succ, reflectRound, ih, BitVec.shiftRight_add]

/-- The loop's invariant: after `n` iterations the `n` positions below `bc` are written, each with its mirrored bit, and
the others hold the value's own bits (R90). -/
theorem getLsbD_foldl_reflectRound_fst (value : Word) {bc n j : Nat} (hn : n ≤ bc) (hj : j < 32) :
    ((List.range n).foldl (reflectRound bc) (value, value)).1.getLsbD j =
      if bc - n ≤ j ∧ j < bc then value.getLsbD (bc - 1 - j) else value.getLsbD j := by
  induction n with
  | zero => simp
  | succ n ih =>
    rw [List.range_succ, List.foldl_append, List.foldl_cons, List.foldl_nil, getLsbD_reflectRound_fst _ _ _ hj,
      foldl_reflectRound_snd, BitVec.getLsbD_ushiftRight, Nat.add_zero, ih (Nat.le_of_succ_le hn)]
    by_cases hwritten : j = bc - 1 - n
    · have hmirror : bc - 1 - j = n := by omega
      rw [if_pos hwritten, if_pos (by omega), hmirror]
    · have hrange : bc - (n + 1) ≤ j ∧ j < bc ↔ bc - n ≤ j ∧ j < bc := by omega
      simp only [if_neg hwritten, hrange]

/-- `reflect`, bit by bit (R90). -/
theorem getLsbD_reflect (value : Word) (bc : Nat) {j : Nat} (hj : j < 32) :
    (reflect value bc).getLsbD j = if j < bc then value.getLsbD (bc - 1 - j) else value.getLsbD j := by
  simp [reflect, getLsbD_foldl_reflectRound_fst value le_rfl hj]

/-- Settles O47: the loop's invariant after all its iterations. -/
theorem reflectReversesTheLowBits : Obligations.ReflectReversesTheLowBits :=
  fun value bc _ _ hj => getLsbD_reflect value bc hj

/-- Reversing no bit changes nothing (R91). -/
@[simp] theorem reflect_zero (value : Word) : reflect value 0 = value := rfl

/-- Reversing one bit changes nothing (R91). -/
@[simp] theorem reflect_one (value : Word) : reflect value 1 = value := by
  apply BitVec.eq_of_getLsbD_eq
  intro j hj
  rw [getLsbD_reflect value 1 hj]
  split_ifs with hlow
  · obtain rfl : j = 0 := by omega
    rfl
  · rfl

/-- `reflect` is its own inverse: the mirror of position `bc - 1 - j` is `j` (R91). -/
theorem reflect_reflect (value : Word) {bc : Nat} (hbc : bc ≤ 32) : reflect (reflect value bc) bc = value := by
  apply BitVec.eq_of_getLsbD_eq
  intro j hj
  rw [getLsbD_reflect _ bc hj]
  split_ifs with hlow
  · have hmirror : bc - 1 - (bc - 1 - j) = j := by omega
    rw [getLsbD_reflect value bc (by omega), if_pos (by omega), hmirror]
  · rw [getLsbD_reflect value bc hj, if_neg hlow]

/-- The bits at and above the bit count pass through (R91). -/
theorem reflect_and_not_lowMask (value : Word) (bc : Nat) :
    reflect value bc &&& ~~~BitVec.ofNat 32 (2 ^ bc - 1) = value &&& ~~~BitVec.ofNat 32 (2 ^ bc - 1) := by
  apply BitVec.eq_of_getLsbD_eq
  intro j hj
  rw [BitVec.getLsbD_and, BitVec.getLsbD_and, getLsbD_reflect value bc hj]
  split_ifs with hlow
  · have hmasked : (~~~BitVec.ofNat 32 (2 ^ bc - 1)).getLsbD j = false := by
      simp [BitVec.getLsbD_ofNat, Nat.testBit_two_pow_sub_one, hj, hlow]
    simp only [hmasked, Bool.and_false]
  · rfl

/-- Settles O48: the four properties of R91, each read off the bits of R90. -/
theorem reflectIsSelfInverse : Obligations.ReflectIsSelfInverse :=
  fun v b hb => ⟨reflect_zero v, reflect_reflect v hb, reflect_one v, reflect_and_not_lowMask v b⟩

end Sys2Proof.Machine

namespace Sys2Proof.Machine

/-! ## O49: the width mask, from the source's formulation to `2^w - 1` (R97, R99) -/

/-- The subtraction does not wrap, since it is from a value at least 1 (R96), and the bit set after the shift is the one
the shift left clear. -/
theorem toNat_widthMask {w : Nat} (hlow : 1 ≤ w) (hhigh : w ≤ 32) : (widthMask w).toNat = 2 ^ w - 1 := by
  obtain ⟨k, rfl⟩ : ∃ k, w = k + 1 := ⟨w - 1, by omega⟩
  have hpos : 0 < 2 ^ k := Nat.two_pow_pos k
  have hle : 2 ^ k ≤ 2 ^ 31 := Nat.pow_le_pow_right (by decide) (by omega)
  have htop : (1#32 <<< k - 1#32).toNat = 2 ^ k - 1 := by
    have hone : (1#32 <<< k).toNat = 2 ^ k := by
      rw [← BitVec.twoPow_eq, BitVec.toNat_twoPow_of_lt (by omega)]
    rw [BitVec.toNat_sub_of_le (BitVec.le_def.mpr (hone ▸ hpos)), hone]
    rfl
  calc (widthMask (k + 1)).toNat
    _ = ((2 ^ k - 1) <<< 1 % 2 ^ 32) ||| 1 := by
      rw [← htop]
      rfl
    _ = (2 ^ k - 1) <<< 1 ||| 1 := by rw [Nat.mod_eq_of_lt (by omega)]
    _ = (2 ^ k - 1) <<< 1 + 1 := (Nat.shiftLeft_add_eq_or_of_lt (by decide) _).symm
    _ = 2 ^ (k + 1) - 1 := by omega

/-- The set bits are the low `w` (R99). -/
theorem getLsbD_widthMask {w : Nat} (hlow : 1 ≤ w) (hhigh : w ≤ 32) (j : Nat) :
    (widthMask w).getLsbD j = decide (j < w) := by
  rw [← BitVec.testBit_toNat, toNat_widthMask hlow hhigh, Nat.testBit_two_pow_sub_one]

/-- Masking keeps the remainder modulo `2^w` (R99). -/
theorem toNat_and_widthMask {w : Nat} (hlow : 1 ≤ w) (hhigh : w ≤ 32) (v : Word) :
    (v &&& widthMask w).toNat = v.toNat % 2 ^ w := by
  rw [BitVec.toNat_and, toNat_widthMask hlow hhigh, Nat.and_two_pow_sub_one_eq_mod]

/-- Settles O49: the bits and the remainder both follow from the mask's value. -/
theorem widthMaskIsTwoToTheWidthMinusOne : Obligations.WidthMaskIsTwoToTheWidthMinusOne :=
  fun _ hlow hhigh => ⟨toNat_widthMask hlow hhigh, fun j _ => getLsbD_widthMask hlow hhigh j,
    toNat_and_widthMask hlow hhigh⟩

end Sys2Proof.Machine

namespace Sys2Proof.Machine

/-! ## O41: a valid table is the current model's -/

/-- Where `b` has VALID = 1, so has `a`, with the same model registers and the same table (R25, R37, R40). -/
def Block.KeepsValidTable (a b : Block) : Prop :=
  b.valid = true →
    a.valid = true ∧ b.width = a.width ∧ b.poly = a.poly ∧ b.refin = a.refin ∧ b.table = a.table

theorem Block.KeepsValidTable.refl (a : Block) : a.KeepsValidTable a :=
  fun hvalid => ⟨hvalid, rfl, rfl, rfl, rfl⟩

theorem Block.keepsValidTable_raise (b : Block) (e : Err) : b.KeepsValidTable (b.raise e) :=
  Block.KeepsValidTable.refl b

/-- A change of the model, or of the table, that leaves VALID = 0 keeps every valid table. -/
theorem Block.keepsValidTable_of_not_valid {a b : Block} (hvalid : b.valid = false) : a.KeepsValidTable b :=
  fun hb => absurd hb (by simp [hvalid])

theorem Block.keepsValidTable_accept (b : Block) (i : Instr) : b.KeepsValidTable (b.accept i) := by
  intro hvalid
  have hb : b.valid = true := by
    rw [Block.accept_valid] at hvalid
    split_ifs at hvalid
    exact hvalid
  exact ⟨hb, rfl, rfl, rfl, rfl⟩

/-- A store changes WIDTH, POLY or REFIN only with VALID cleared (R31, R32, R33, R40). -/
theorem Block.keepsValidTable_writeIdle (b : Block) (r : Reg) (v : Word) : b.KeepsValidTable (b.writeIdle v r) := by
  cases r with
  | cmd =>
    obtain ⟨_, -, hissue⟩ | ⟨i, -, hissue⟩ := b.issue_cases v
    · rw [Block.writeIdle, hissue]
      exact b.keepsValidTable_raise .cmd
    · rw [Block.writeIdle, hissue]
      exact b.keepsValidTable_accept i
  | width =>
    obtain ⟨-, -, hwidth⟩ | ⟨-, hwidth⟩ := b.writeWidth_cases v
    · exact Block.keepsValidTable_of_not_valid (congrArg Block.valid hwidth)
    · rw [Block.writeIdle, hwidth]
      exact b.keepsValidTable_raise .cfg
  | poly | flags => exact Block.keepsValidTable_of_not_valid rfl
  | status | init | xorout | operand | result | table => exact Block.KeepsValidTable.refl b

theorem Block.keepsValidTable_write (b : Block) (r : Reg) (v : Word) : b.KeepsValidTable (b.write r v) := by
  obtain ⟨-, hw⟩ | ⟨-, hw⟩ | ⟨-, ⟨-, hw⟩ | ⟨-, hw⟩⟩ := b.write_cases r v <;> rw [hw]
  · exact Block.KeepsValidTable.refl b
  · exact b.keepsValidTable_raise .acc
  · exact b.keepsValidTable_raise .busy
  · exact b.keepsValidTable_writeIdle r v

theorem Block.keepsValidTable_afterRead (b : Block) (r : Reg) : b.KeepsValidTable (b.afterRead r) := by
  obtain hr | ⟨_, -, -, hr⟩ := b.afterRead_cases r <;> rw [hr]
  · exact .refl b
  · exact b.keepsValidTable_raise .acc

/-- What keeps every valid table keeps the invariant of R110. -/
theorem Block.TableCurrent.of_keepsValidTable {a b : Block} (ha : a.TableCurrent) (h : a.KeepsValidTable b) :
    b.TableCurrent := by
  intro hvalid i
  obtain ⟨havalid, hwidth, hpoly, hrefin, htable⟩ := h hvalid
  have hentry : b.entry i = a.entry i := by simp only [Block.entry, htable]
  rw [hentry, hwidth, hpoly, hrefin]
  exact ha havalid i

/-- GENERATE makes every entry the current model's, LDDEF leaves no valid table, and the other commands touch neither the
model nor the table (R109, R113). -/
theorem Block.TableCurrent.completion {b : Block} (hb : b.TableCurrent) (i : Instr) :
    (effectOf i b).finish.TableCurrent := by
  cases i with
  | generate =>
    intro _ idx
    exact b.storeTable_entry b.remainder idx
  | lddef => exact hb.of_keepsValidTable (Block.keepsValidTable_of_not_valid rfl)
  | nop | reflect | mask | byterem => exact hb

/-- Settles O41, by the step's kinds: a host access keeps every valid table, a completion makes or keeps the current
model's, and a reset leaves none. -/
theorem validTableIsTheCurrentModels : Obligations.ValidTableIsTheCurrentModels := by
  refine ⟨fun hvalid => absurd hvalid Bool.false_ne_true, fun s t hcurrent hstep => ?_⟩
  have hblock := blockStep_of_step hstep
  generalize t.block = b at hblock
  cases hblock with
  | unserved | idle => exact hcurrent
  | read => exact hcurrent.of_keepsValidTable (s.block.keepsValidTable_afterRead _)
  | write => exact hcurrent.of_keepsValidTable (s.block.keepsValidTable_write _ _)
  | completion => exact hcurrent.completion _
  | reset => exact hcurrent.of_keepsValidTable (Block.keepsValidTable_of_not_valid rfl)

end Sys2Proof.Machine

namespace Sys2Proof.Machine

/-! ## O51, O52: the remainder depends on the low `w` bits of the division register and of the polynomial alone (R103) -/

/-- Equal in the bits below `w`. -/
def AgreeBelow (w : Nat) (a b : Word) : Prop := ∀ j < w, a.getLsbD j = b.getLsbD j

theorem AgreeBelow.refl (w : Nat) (a : Word) : AgreeBelow w a a := fun _ _ => rfl

/-- Masking to `w` bits forgets exactly the bits from `w` up. -/
theorem and_widthMask_eq_iff {w : Nat} (hlow : 1 ≤ w) (hhigh : w ≤ 32) {a b : Word} :
    a &&& widthMask w = b &&& widthMask w ↔ AgreeBelow w a b := by
  constructor
  · intro h j hj
    simpa [getLsbD_widthMask hlow hhigh, hj] using congrArg (·.getLsbD j) h
  · intro h
    apply BitVec.eq_of_getLsbD_eq
    intro j _
    by_cases hj : j < w
    · simp [getLsbD_widthMask hlow hhigh, hj, h j hj]
    · simp [getLsbD_widthMask hlow hhigh, hj]

theorem agreeBelow_and_widthMask {w : Nat} (hlow : 1 ≤ w) (hhigh : w ≤ 32) (a : Word) :
    AgreeBelow w a (a &&& widthMask w) :=
  (and_widthMask_eq_iff hlow hhigh).mp (by rw [BitVec.and_assoc, BitVec.and_self])

/-- Reversing the low `w` bits moves no bit across position `w` (R90). -/
theorem AgreeBelow.reflect {w : Nat} (hhigh : w ≤ 32) {a b : Word} (h : AgreeBelow w a b) :
    AgreeBelow w (reflect a w) (reflect b w) := by
  intro j hj
  rw [getLsbD_reflect a w (by omega), getLsbD_reflect b w (by omega), if_pos hj, if_pos hj]
  exact h _ (by omega)

/-- A round, bit by bit: the shifted register, and the polynomial where bit `w - 1` was set (R102). -/
theorem getLsbD_divRound (w : Nat) (poly dr : Word) (j : Nat) :
    (divRound w poly dr).getLsbD j = ((dr <<< 1).getLsbD j ^^ (dr.getLsbD (w - 1) && poly.getLsbD j)) := by
  unfold divRound
  split_ifs with htop <;> simp [htop]

/-- The low `w` bits after a round come from the low `w` bits before it and those of the polynomial (R103). -/
theorem AgreeBelow.divRound {w : Nat} {poly poly' dr dr' : Word} (hpoly : AgreeBelow w poly poly')
    (hdr : AgreeBelow w dr dr') : AgreeBelow w (divRound w poly dr) (divRound w poly' dr') := by
  intro j hj
  have htop : dr.getLsbD (w - 1) = dr'.getLsbD (w - 1) := hdr _ (by omega)
  have hshift : dr.getLsbD (j - 1) = dr'.getLsbD (j - 1) := hdr _ (by omega)
  simp only [getLsbD_divRound, BitVec.getLsbD_shiftLeft, htop, hshift, hpoly j hj]

theorem AgreeBelow.divRounds {w : Nat} {poly poly' : Word} (hpoly : AgreeBelow w poly poly') (n : Nat) {dr dr' : Word}
    (hdr : AgreeBelow w dr dr') : AgreeBelow w (divRounds w poly n dr) (divRounds w poly' n dr') := by
  induction n generalizing dr dr' with
  | zero => exact hdr
  | succ n ih => exact ih (hpoly.divRound hdr)

/-- The division register before the 8 rounds: steps 1 and 2 of R102. -/
def dividend (w : Nat) (ri : Bool) (idx : BitVec 8) : Word :=
  (if ri then reflect (zext32 idx) 8 else zext32 idx) <<< (w - 8)

/-- The remainder a division register holds after the 8 rounds: steps 4 and 5 of R102. -/
def remainderOf (w : Nat) (ri : Bool) (dr : Word) : Word :=
  (if ri then reflect dr w else dr) &&& widthMask w

/-- The five steps of R102, with step 3 apart. -/
theorem byteRemainder_eq (w : Nat) (poly : Word) (ri : Bool) (idx : BitVec 8) :
    byteRemainder w poly ri idx = remainderOf w ri (divRounds w poly 8 (dividend w ri idx)) := rfl

theorem remainderOf_congr {w : Nat} (hlow : 1 ≤ w) (hhigh : w ≤ 32) (ri : Bool) {dr dr' : Word}
    (h : AgreeBelow w dr dr') : remainderOf w ri dr = remainderOf w ri dr' := by
  apply (and_widthMask_eq_iff hlow hhigh).mpr
  cases ri with
  | false => exact h
  | true => exact h.reflect hhigh

/-- R104 for any two polynomials. -/
theorem byteRemainder_congr_poly {w : Nat} (hlow : 1 ≤ w) (hhigh : w ≤ 32) {poly poly' : Word}
    (hpoly : AgreeBelow w poly poly') (ri : Bool) (idx : BitVec 8) :
    byteRemainder w poly ri idx = byteRemainder w poly' ri idx :=
  remainderOf_congr hlow hhigh ri (hpoly.divRounds 8 (.refl w _))

/-- Settles O51: the polynomial and its masked form agree below the width. -/
theorem polynomialBitsAboveWidthVanish : Obligations.PolynomialBitsAboveWidthVanish := by
  intro w poly ri idx hlow hhigh
  have hpos : 1 ≤ w := by omega
  exact byteRemainder_congr_poly hpos hhigh (agreeBelow_and_widthMask hpos hhigh poly) ri idx

@[simp] theorem reflect_of_zero (bc : Nat) : reflect 0#32 bc = 0#32 := by
  apply BitVec.eq_of_getLsbD_eq
  intro j hj
  simp [getLsbD_reflect _ bc hj]

@[simp] theorem dividend_zero (w : Nat) (ri : Bool) : dividend w ri 0#8 = 0#32 := by
  cases ri <;> simp [dividend, zext32]

@[simp] theorem remainderOf_zero (w : Nat) (ri : Bool) : remainderOf w ri 0#32 = 0#32 := by
  cases ri <;> simp [remainderOf]

/-- A register that is 0 stays 0: no round finds its top bit set. -/
@[simp] theorem divRounds_of_zero (w : Nat) (poly : Word) (n : Nat) : divRounds w poly n 0#32 = 0#32 := by
  induction n with
  | zero => rfl
  | succ n ih => simpa [divRounds, divRound] using ih

/-- Under the polynomial 0 the rounds only shift. -/
theorem divRounds_zero_poly (w n : Nat) (dr : Word) : divRounds w 0#32 n dr = dr <<< n := by
  induction n generalizing dr with
  | zero => simp [divRounds]
  | succ n ih =>
    have hround : divRound w 0#32 dr = dr <<< 1 := by simp [divRound]
    rw [divRounds, hround, ih, ← BitVec.shiftLeft_add, Nat.add_comm]

/-- Entry 0 is 0 (R106). -/
@[simp] theorem byteRemainder_idx_zero (w : Nat) (poly : Word) (ri : Bool) : byteRemainder w poly ri 0#8 = 0#32 := by
  simp [byteRemainder_eq]

/-- A remainder lies in `[0, 2^w - 1]` (R106). -/
theorem toNat_byteRemainder_lt {w : Nat} (hlow : 1 ≤ w) (hhigh : w ≤ 32) (poly : Word) (ri : Bool) (idx : BitVec 8) :
    (byteRemainder w poly ri idx).toNat < 2 ^ w := by
  rw [byteRemainder_eq, remainderOf, toNat_and_widthMask hlow hhigh]
  exact Nat.mod_lt _ (Nat.two_pow_pos w)

/-- A remainder's bits from `w` up are 0 (R109). -/
theorem getLsbD_byteRemainder_of_ge {w : Nat} (hlow : 1 ≤ w) (hhigh : w ≤ 32) (poly : Word) (ri : Bool)
    (idx : BitVec 8) {j : Nat} (hj : w ≤ j) : (byteRemainder w poly ri idx).getLsbD j = false :=
  Nat.testBit_lt_two_pow
    (Nat.lt_of_lt_of_le (toNat_byteRemainder_lt hlow hhigh poly ri idx) (Nat.pow_le_pow_right Nat.two_pos hj))

/-- Under the polynomial 0 the byte is shifted out past bit `w - 1`. -/
theorem byteRemainder_zero_poly {w : Nat} (hlow : 8 ≤ w) (hhigh : w ≤ 32) (ri : Bool) (idx : BitVec 8) :
    byteRemainder w 0#32 ri idx = 0#32 := by
  have hshifted : AgreeBelow w (divRounds w 0#32 8 (dividend w ri idx)) 0#32 := by
    intro j hj
    have hsum : w - 8 + 8 = w := by omega
    rw [divRounds_zero_poly, dividend, ← BitVec.shiftLeft_add, hsum]
    simp [hj]
  rw [byteRemainder_eq, remainderOf_congr (by omega) hhigh ri hshifted, remainderOf_zero]

/-- Settles O52: a polynomial with no bit below the width agrees there with the polynomial 0. -/
theorem remainderRangeAndZeros : Obligations.RemainderRangeAndZeros := by
  intro w poly ri idx hlow hhigh
  have hpos : 1 ≤ w := by omega
  refine ⟨byteRemainder_idx_zero w poly ri, toNat_byteRemainder_lt hpos hhigh poly ri idx, fun hpoly => ?_⟩
  have hagree : AgreeBelow w poly 0#32 :=
    (and_widthMask_eq_iff hpos hhigh).mp (hpoly.trans BitVec.zero_and.symm)
  exact (byteRemainder_congr_poly hpos hhigh hagree ri idx).trans (byteRemainder_zero_poly hlow hhigh ri idx)

end Sys2Proof.Machine

namespace Sys2Proof.Machine

/-! ## O54: GENERATE's table is a function of the model -/

/-- Machines with equal WIDTH and REFIN, and POLY equal below WIDTH, have the same remainders (R111). -/
theorem Block.remainder_congr {b b' : Block} (hlegal : b.WidthLegal) (hwidth : b.width = b'.width)
    (hrefin : b.refin = b'.refin) (hpoly : AgreeBelow b.width.toNat b.poly b'.poly) : b.remainder = b'.remainder := by
  obtain ⟨hlow, hhigh⟩ := hlegal
  funext idx
  unfold Block.remainder Block.widthArg
  rw [← hwidth, ← hrefin]
  exact byteRemainder_congr_poly (by omega) hhigh hpoly b.refin idx

/-- GENERATE's completion leaves the table of the remainders (R108). -/
theorem table_of_exec_generate {s t : State} (h : exec .generate s = .next t) :
    t.block.table = Vector.ofFn fun i => s.block.remainder (BitVec.ofFin i) := by
  rw [exec_eq] at h
  cases h
  rfl

/-- Settles O54: equal models have equal remainders, and the table is made of these. -/
theorem equalModelsGenerateEqualTables : Obligations.EqualModelsGenerateEqualTables := by
  intro s s' t t' hlegal hwidth hrefin hpoly hexec hexec'
  have hpos : 1 ≤ s.block.width.toNat := Nat.le_trans (by decide) hlegal.1
  have hagree := (and_widthMask_eq_iff hpos hlegal.2).mp hpoly
  rw [table_of_exec_generate hexec, table_of_exec_generate hexec', Block.remainder_congr hlegal hwidth hrefin hagree]

end Sys2Proof.Machine

namespace Sys2Proof.Machine

/-! ## O38: a GENERATE from its issue, over any host accesses, to its completion -/

/-- A run in two parts. -/
theorem core_run_add {m n : Nat} {s t : State} (h : Sys2Proof.core.run m s = .next t) :
    Sys2Proof.core.run (m + n) s = Sys2Proof.core.run n t := by
  induction m generalizing s with
  | zero =>
    cases h
    rw [Nat.zero_add]
  | succ m ih =>
    cases hstep : step s with
    | next u =>
      rw [core_run_succ hstep] at h
      rw [Nat.succ_add, core_run_succ hstep, ih h]
    | fault | refused => simp [Host.Core.run, show Sys2Proof.core.step s = _ from hstep] at h

/-- The machine with the legal command `i` just accepted from the bus, and `agenda` to come. -/
def State.issued (s : State) (i : Instr) (agenda : List Event) : State :=
  { s with block := s.block.accept i, response := some .ok, agenda := agenda }

/-- The issue of a legal word while idle is the first step of a run (R80, R82). -/
theorem core_run_issue {s : State} {v : Word} {i : Instr} (hidle : s.block.pend = none)
    (hword : decode v = .command i) (k : Nat) (agenda : List Event) :
    Sys2Proof.core.run (k + 1) { s with agenda := .host (Reg.cmd.writeAccess v) :: agenda } =
      Sys2Proof.core.run k (s.issued i agenda) := by
  apply core_run_succ
  rw [step_writeAccess, Block.write_cmd_of_command hidle hword]
  rfl

/-- An accepted command is still pending after the first `n` of the accesses that follow, and they changed at most DONE and
the error bits (R83). -/
theorem core_run_issued_accesses (s : State) (i : Instr) (accesses : List Access) (rest : List Event) {n : Nat}
    (hn : n ≤ accesses.length) :
    ∃ u : State, Sys2Proof.core.run n (s.issued i (accesses.map .host ++ rest)) = .next u
      ∧ u.agenda = (accesses.drop n).map .host ++ rest ∧ (s.block.accept i).SameButClearable u.block := by
  have hrun := core_run_accesses_of_pending (accesses.take n) (s.issued i []) ((accesses.drop n).map .host ++ rest)
    (Option.some_ne_none i)
  rw [List.length_take_of_le hn, ← List.append_assoc, ← List.map_append, List.take_append_drop] at hrun
  exact hrun

/-- VALID and the model registers are not among the clearable bits. -/
theorem Block.SameButClearable.valid_eq {a b : Block} (h : a.SameButClearable b) : b.valid = a.valid :=
  (congrArg Block.valid h).symm

theorem Block.SameButClearable.remainder_eq {a b : Block} (h : a.SameButClearable b) : b.remainder = a.remainder :=
  (congrArg Block.remainder h).symm

/-- Settles O38: the accesses keep the accepted model and VALID = 0, and the engine's step then writes the table. -/
theorem generateFillsTheTableOfTheAcceptedModel : Obligations.GenerateFillsTheTableOfTheAcceptedModel := by
  rintro s accesses rest _ hidle rfl
  have hword : decode 0x00000004 = .command .generate := by decide
  refine ⟨fun k hfirst hlast => ?_, ?_⟩
  · obtain ⟨n, rfl⟩ : ∃ n, k = n + 1 := ⟨k - 1, by omega⟩
    obtain ⟨u, hrun, -, hkept⟩ :=
      core_run_issued_accesses s .generate accesses (.engine :: rest) (Nat.le_of_succ_le_succ hlast)
    exact ⟨u, (core_run_issue hidle hword n _).trans hrun, hkept.valid_eq⟩
  · obtain ⟨u, hrun, hagenda, hkept⟩ :=
      core_run_issued_accesses s .generate accesses (.engine :: rest) (Nat.le_refl _)
    rw [List.drop_length, List.map_nil, List.nil_append] at hagenda
    have hstep := step_completion hkept.pend_eq (.inl hagenda)
    have hentry (i : BitVec 8) : (u.block.storeTable u.block.remainder).finish.entry i = s.block.remainder i := by
      rw [Block.finish_entry, Block.storeTable_entry, hkept.remainder_eq]
      rfl
    refine ⟨{ u with block := (u.block.storeTable u.block.remainder).finish, agenda := rest }, ?_, rfl, rfl, rfl,
      fun i => ⟨hentry i, fun ⟨hlow, hhigh⟩ j hj => ?_⟩⟩
    · rw [core_run_issue hidle hword, core_run_add hrun, core_run_succ hstep]
      rfl
    · rw [hentry i]
      exact getLsbD_byteRemainder_of_ge (by omega) hhigh _ _ i hj

end Sys2Proof.Machine

namespace Sys2Proof.Machine

/-! ## O18: the engine raises no error -/

/-- An error bit is set only by a host access: a completion keeps it (R121), a reset clears it (R135), and a step with
nothing to do changes nothing. -/
theorem host_of_errBit_set {s t : State} {e : Err} (hstep : step s = .next t) (hclear : s.block.errBit e = false)
    (hset : t.block.errBit e = true) : ∃ a rest, s.agenda = .host a :: rest := by
  obtain ⟨a, rest, hag, -⟩ | ⟨i, rest, -, -, rfl⟩ | ⟨rest, -, rfl⟩ | ⟨-, -, rfl⟩ := step_cases hstep
  · exact ⟨a, rest, hag⟩
  · simp [hclear] at hset
  · simp [State.resetStep] at hset
  · simp [hclear] at hset

/-- Settles O18: a completion is a total effect on CRCTG that keeps every error bit, and among the kinds of step only a host
access sets one. -/
theorem engineRaisesNoError : Obligations.EngineRaisesNoError :=
  ⟨fun i s => ⟨_, exec_eq i s, effectOf_finish_errBit i s.block⟩, fun _ _ _ => host_of_errBit_set⟩

end Sys2Proof.Machine

namespace Sys2Proof.Machine

/-! ## O11: a guarded write while a command is pending -/

/-- While a command is pending, a write of a location that R54 guards is dropped with BUSY_ERR (R141). -/
theorem Block.write_busy {b : Block} {r : Reg} (hbusy : b.pend ≠ none)
    (hr : r ≠ .status ∧ r ≠ .result ∧ ∀ i, r ≠ .table i) (v : Word) : b.write r v = b.raise .busy := by
  obtain ⟨hnstatus, hnresult, hntable⟩ := hr
  obtain ⟨hstatus, -⟩ | ⟨hresult | ⟨i, htable⟩, -⟩ | ⟨-, ⟨-, hdropped⟩ | ⟨hidle, -⟩⟩ := b.write_cases r v
  · exact absurd hstatus hnstatus
  · exact absurd hresult hnresult
  · exact absurd htable (hntable i)
  · exact hdropped
  · exact absurd (b.busy_eq_false.mp hidle) hbusy

/-- Settles O11: the seven locations are the guarded ones, and STATUS has no busy check. -/
theorem writesWhileBusyAreDropped : Obligations.WritesWhileBusyAreDropped := by
  intro s v rest hbusy
  refine ⟨fun r hr => ?_, step_writeAccess s .status v rest⟩
  rw [step_writeAccess, Block.write_busy hbusy (Reg.mem_busyGuarded.mp hr), Block.raise_busy]

/-! ## O44: the reset step -/

/-- STATUS reads 0 after a reset step: nothing is pending, and VALID, DONE and the error bits are clear (R135). -/
@[simp] theorem Block.afterReset_statusWord (draw : Nat) : (Block.afterReset draw).statusWord = 0 := by
  simp [Block.statusWord, Block.busy, fieldAt]

/-- FLAGS reads 0 after a reset step (R135). -/
@[simp] theorem Block.afterReset_flagsWord (draw : Nat) : (Block.afterReset draw).flagsWord = 0 := by
  simp [Block.flagsWord, fieldAt]

/-- Settles O44: the step puts CRCTG in the state after reset, whatever was pending, and keeps the events to come. -/
theorem resetStepSetsEveryRegister : Obligations.ResetStepSetsEveryRegister :=
  fun s _ => ⟨_, step_reset rfl, rfl, rfl, rfl, Block.afterReset_flagsWord s.draws, rfl, rfl, rfl, rfl,
    Block.afterReset_statusWord s.draws, rfl⟩

end Sys2Proof.Machine


namespace Sys2Proof

/-! ## O1, O2, O4: decoder and encoder -/

/-- Settles O1: the encoding's fields are the command's, and the decoder reads the command off them. -/
theorem decodeOfEncodeIsTheCommand : Obligations.DecodeOfEncodeIsTheCommand :=
  fun _ hwf => decode_eq_command_iff.mpr ⟨hwf, rfl⟩

/-- Settles O2: the other direction of the same inverse. -/
theorem decodedWordIsTheEncoding : Obligations.DecodedWordIsTheEncoding :=
  fun _ _ hword => decode_eq_command_iff.mp hword

/-- Settles O4: the decoder, evaluated on each of the ten words. -/
theorem writtenOutWordsDecode : Obligations.WrittenOutWordsDecode := by
  unfold Obligations.WrittenOutWordsDecode
  decide

end Sys2Proof

namespace Sys2Proof.Machine

/-! ## O45: the table RAM is hidden while VALID = 0 -/

/-- `b` with another table RAM. -/
def Block.setTable (b : Block) (tab : Vector Word 256) : Block := { b with table := tab }

theorem Block.sameButHiddenTable_iff {a b : Block} :
    a.SameButHiddenTable b ↔ a = b ∨ (a.valid = false ∧ ∃ tab, b = a.setTable tab) := by
  constructor
  · rintro ⟨hsame, htable⟩
    cases hvalid : a.valid with
    | true => exact .inl (by rw [← hsame, ← htable hvalid])
    | false => exact .inr ⟨rfl, b.table, hsame.symm⟩
  · rintro (rfl | ⟨hvalid, tab, rfl⟩)
    · exact ⟨rfl, fun _ => rfl⟩
    · exact ⟨rfl, fun h => absurd h (by simp [hvalid])⟩

section SetTable
variable (b : Block) (tab : Vector Word 256)

@[simp] theorem Block.setTable_valid : (b.setTable tab).valid = b.valid := rfl
@[simp] theorem Block.setTable_busy : (b.setTable tab).busy = b.busy := rfl

/-- A change of the table RAM alone is hidden while VALID = 0. -/
theorem Block.sameButHiddenTable_setTable (hvalid : b.valid = false) : b.SameButHiddenTable (b.setTable tab) :=
  Block.sameButHiddenTable_iff.mpr (.inr ⟨hvalid, tab, rfl⟩)

/-- No store depends on the table RAM. -/
theorem Block.writeIdle_setTable (r : Reg) (v : Word) :
    (b.setTable tab).writeIdle v r = (b.writeIdle v r).setTable tab := by
  cases r with
  | cmd =>
    simp only [Block.writeIdle, Block.issue]
    cases decode v <;> rfl
  | width =>
    simp only [Block.writeIdle, Block.writeWidth]
    split <;> rfl
  | _ => rfl

theorem Block.write_setTable (r : Reg) (v : Word) :
    (b.setTable tab).write r v = (b.write r v).setTable tab := by
  cases r with
  | status | result | table => rfl
  | _ =>
    simp only [Block.write, Block.setTable_busy, b.writeIdle_setTable]
    cases b.busy <;> rfl

theorem Block.afterRead_setTable (r : Reg) : (b.setTable tab).afterRead r = (b.afterRead r).setTable tab := by
  cases r with
  | table => exact (apply_ite (Block.setTable · tab) (b.valid = true) b (b.raise .acc)).symm
  | _ => rfl

variable (hvalid : b.valid = false)
include hvalid

/-- While VALID = 0 a read of an entry returns 0, and no other read is of the table RAM (R38). -/
theorem Block.readValue_setTable (r : Reg) : (b.setTable tab).readValue r = b.readValue r := by
  cases r with
  | table i => simp [Block.readValue, hvalid]
  | _ => rfl

/-- No write makes a table valid. -/
theorem Block.write_not_valid (r : Reg) (v : Word) : (b.write r v).valid = false := by
  rw [← Bool.not_eq_true, Block.write_valid]
  simp [hvalid]

/-- An access is answered without a hidden table, and keeps it hidden. -/
theorem Access.perform_setTable (a : Access) :
    (a.perform b).1 = (a.perform (b.setTable tab)).1
      ∧ (a.perform b).2.SameButHiddenTable (a.perform (b.setTable tab)).2 := by
  obtain ⟨r, rfl⟩ | ⟨r, v, rfl⟩ | ha := a.cases
  · rw [Access.perform_readAccess, Access.perform_readAccess, b.readValue_setTable tab hvalid, b.afterRead_setTable]
    exact ⟨rfl, Block.sameButHiddenTable_setTable _ tab (by rw [Block.afterRead_valid, hvalid])⟩
  · rw [Access.perform_writeAccess, Access.perform_writeAccess, b.write_setTable]
    exact ⟨rfl, Block.sameButHiddenTable_setTable _ tab (b.write_not_valid hvalid r v)⟩
  · obtain ⟨answer, hperform⟩ := Access.perform_of_namesNoLocation ha
    rw [hperform, hperform]
    exact ⟨rfl, b.sameButHiddenTable_setTable tab hvalid⟩

/-- GENERATE overwrites every entry; no other command reads or writes the table RAM, nor sets VALID. -/
theorem effectOf_finish_setTable (i : Instr) :
    (effectOf i b).finish.SameButHiddenTable (effectOf i (b.setTable tab)).finish := by
  cases i with
  | generate => exact Block.sameButHiddenTable_iff.mpr (.inl rfl)
  | lddef => exact Block.sameButHiddenTable_setTable _ tab rfl
  | nop | reflect | mask | byterem => exact Block.sameButHiddenTable_setTable _ tab hvalid

end SetTable

/-- With nothing pending there is no engine step (R84). -/
theorem step_engine_idle {s : State} {rest : List Event} (hpend : s.block.pend = none)
    (hag : s.agenda = .engine :: rest) : step s = .fault .engineNotEnabled := by
  simp [step, engineStep, hag, hpend]

/-- The only fault is the engine's turn with nothing pending. -/
theorem step_eq_fault {s : State} {f : Fault} (h : step s = .fault f) :
    s.block.pend = none ∧ ∃ rest, s.agenda = .engine :: rest := by
  match hag : s.agenda with
  | .host a :: rest => simp [step_host hag] at h
  | .reset :: rest => simp [step_reset hag] at h
  | .engine :: rest =>
    cases hpend : s.block.pend with
    | none => exact ⟨rfl, rest, rfl⟩
    | some i => simp [step_completion hpend (.inl hag)] at h
  | [] =>
    cases hpend : s.block.pend with
    | none => simp [step_idle hag hpend] at h
    | some i => simp [step_completion hpend (.inr ⟨hag, rfl⟩)] at h

/-- Settles O45: where VALID = 1 the machines are equal; where VALID = 0 each kind of step commutes with a change of the
table RAM, or makes the tables equal. -/
theorem hiddenTableIsUnobservable : Obligations.HiddenTableIsUnobservable := by
  rintro s ⟨tblock, tagenda, tresponse, tdraws⟩ ⟨hblock, hagenda, hresponse, hdraws⟩
  obtain rfl : s.agenda = tagenda := hagenda
  obtain rfl : s.response = tresponse := hresponse
  obtain rfl : s.draws = tdraws := hdraws
  obtain rfl | ⟨hvalid, tab, rfl⟩ := Block.sameButHiddenTable_iff.mp hblock
  · exact ⟨fun s' h => ⟨s', h, ⟨rfl, fun _ => rfl⟩, rfl, rfl, rfl⟩, fun _ h => h⟩
  refine ⟨fun s' hstep => ?_, fun f hfault => ?_⟩
  · obtain ⟨a, rest, hag, rfl⟩ | ⟨i, rest, hpend, hag, rfl⟩ | ⟨rest, hag, rfl⟩ | ⟨hag, hpend, rfl⟩ :=
      step_cases hstep
    · obtain ⟨hanswer, hafter⟩ := Access.perform_setTable s.block tab hvalid a
      exact ⟨_, step_host hag, hafter, rfl, hanswer, rfl⟩
    · exact ⟨_, step_completion hpend hag, effectOf_finish_setTable s.block tab hvalid i, rfl, rfl, rfl⟩
    · exact ⟨_, step_reset hag, ⟨rfl, fun _ => rfl⟩, rfl, rfl, rfl⟩
    · exact ⟨_, step_idle hag hpend, hblock, rfl, rfl, rfl⟩
  · obtain ⟨hpend, rest, hag⟩ := step_eq_fault hfault
    exact step_engine_idle hpend hag

end Sys2Proof.Machine


namespace Sys2Proof.Machine

/-! ## O50, O53, O55: the remainder's two formulations, its linearity, and the default model -/

/-- A round of R103 is a round of R102, masked. -/
theorem maskedRound_eq (w : Nat) (poly r : Word) : maskedRound w poly r = divRound w poly r &&& widthMask w := by
  unfold maskedRound divRound
  split_ifs <;> simp

/-- The mask after every round is lost below the width: the two registers agree there all along (R103). -/
theorem agreeBelow_maskedRounds {w : Nat} (hlow : 1 ≤ w) (hhigh : w ≤ 32) (poly : Word) (n : Nat) {dr r : Word}
    (h : AgreeBelow w dr r) : AgreeBelow w (divRounds w poly n dr) (maskedRounds w poly n r) := by
  induction n generalizing dr r with
  | zero => exact h
  | succ n ih =>
    have hround : AgreeBelow w (divRound w poly dr) (divRound w poly r) := (AgreeBelow.refl w poly).divRound h
    rw [divRounds, maskedRounds, maskedRound_eq]
    exact ih fun j hj => (hround j hj).trans (agreeBelow_and_widthMask hlow hhigh _ j hj)

/-- R103's formulation, with its rounds apart. -/
theorem byteRemainderMasked_eq (w : Nat) (poly : Word) (ri : Bool) (idx : BitVec 8) :
    byteRemainderMasked w poly ri idx =
      remainderOf w ri (maskedRounds w poly 8 (dividend w ri idx &&& widthMask w)) := rfl

/-- Settles O50: the registers of both formulations agree below the width, and the last steps see no more of them. -/
theorem remainderFormulationsAgree : Obligations.RemainderFormulationsAgree := by
  intro w poly ri idx hlow hhigh
  have hpos : 1 ≤ w := by omega
  rw [byteRemainder_eq, byteRemainderMasked_eq]
  exact remainderOf_congr hpos hhigh ri
    (agreeBelow_maskedRounds hpos hhigh poly 8 (agreeBelow_and_widthMask hpos hhigh _))

/-- Reversing bits moves them, whatever their values. -/
theorem reflect_xor (a b : Word) (bc : Nat) : reflect (a ^^^ b) bc = reflect a bc ^^^ reflect b bc := by
  apply BitVec.eq_of_getLsbD_eq
  intro j hj
  simp only [BitVec.getLsbD_xor, getLsbD_reflect _ bc hj]
  split_ifs <;> rfl

theorem dividend_xor (w : Nat) (ri : Bool) (a b : BitVec 8) :
    dividend w ri (a ^^^ b) = dividend w ri a ^^^ dividend w ri b := by
  cases ri <;> simp [dividend, zext32, BitVec.setWidth_xor, reflect_xor, BitVec.shiftLeft_xor_distrib]

/-- A round is linear in the register: the polynomial is subtracted for the sum when it is for exactly one summand. -/
theorem divRound_xor (w : Nat) (poly a b : Word) :
    divRound w poly (a ^^^ b) = divRound w poly a ^^^ divRound w poly b := by
  apply BitVec.eq_of_getLsbD_eq
  intro j _
  simp only [getLsbD_divRound, BitVec.getLsbD_xor, BitVec.shiftLeft_xor_distrib, Bool.and_xor_distrib_right,
    Bool.xor_assoc, Bool.xor_left_comm]

theorem divRounds_xor (w : Nat) (poly : Word) (n : Nat) (a b : Word) :
    divRounds w poly n (a ^^^ b) = divRounds w poly n a ^^^ divRounds w poly n b := by
  induction n generalizing a b with
  | zero => rfl
  | succ n ih => simp only [divRounds, divRound_xor, ih]

/-- Masking is linear. -/
theorem xor_and_mask (a b m : Word) : (a ^^^ b) &&& m = (a &&& m) ^^^ (b &&& m) := by
  apply BitVec.eq_of_getLsbD_eq
  intro j _
  simp only [BitVec.getLsbD_and, BitVec.getLsbD_xor, Bool.and_xor_distrib_right]

theorem remainderOf_xor (w : Nat) (ri : Bool) (a b : Word) :
    remainderOf w ri (a ^^^ b) = remainderOf w ri a ^^^ remainderOf w ri b := by
  cases ri <;> simp [remainderOf, reflect_xor, xor_and_mask]

/-- Settles O53: each of the five steps of R102 is linear. -/
theorem remainderIsLinearInTheIndex : Obligations.RemainderIsLinearInTheIndex := by
  intro w poly ri a b _ _
  simp only [byteRemainder_eq, dividend_xor, divRounds_xor, remainderOf_xor]

/-- Settles O55: entry 0 and the range are R106's, and entry 1 is computed. -/
theorem defaultModelEntries : Obligations.DefaultModelEntries := by
  refine ⟨byteRemainder_idx_zero _ _ _, by decide +kernel, fun i => ?_⟩
  exact Nat.le_of_lt_succ (toNat_byteRemainder_lt (by decide) (by decide) 0x5935 false i)

/-! ## O12 to O17: what each command's completion leaves -/

/-- Settles O12: NOP's effect is nothing but the common part. -/
theorem nopCompletes : Obligations.NopCompletes := fun s => exec_eq .nop s

/-- Settles O13: the result is `reflect`'s, whose bits are R90's. -/
theorem reflectCompletes : Obligations.ReflectCompletes :=
  fun s bc => ⟨reflect s.block.operand bc.toNat, exec_eq (.reflect bc) s,
    fun _ _ hj => getLsbD_reflect s.block.operand bc.toNat hj⟩

/-- Settles O14: the result is the width mask, whose value is R97's. -/
theorem maskCompletes : Obligations.MaskCompletes := by
  intro s
  refine ⟨widthMask s.block.width.toNat, exec_eq .mask s, ?_⟩
  rintro ⟨hlow, hhigh⟩
  exact toNat_widthMask (by omega) hhigh

/-- Settles O15: the result is R102's remainder, which is R103's, and in R106's range. -/
theorem byteremCompletes : Obligations.ByteremCompletes := by
  intro s idx
  refine ⟨s.block.remainder idx, exec_eq (.byterem idx) s, ?_⟩
  rintro ⟨hlow, hhigh⟩
  exact ⟨remainderFormulationsAgree _ _ _ idx hlow hhigh, toNat_byteRemainder_lt (by omega) hhigh _ _ idx⟩

/-- Settles O16: the table is the one made of the remainders. -/
theorem generateCompletes : Obligations.GenerateCompletes := by
  intro s
  refine ⟨Vector.ofFn fun i => s.block.remainder (BitVec.ofFin i), exec_eq .generate s, fun i h => ?_⟩
  have hindex : BitVec.ofFin ⟨i, h⟩ = BitVec.ofNat 8 i := BitVec.eq_of_toNat_eq (Nat.mod_eq_of_lt h).symm
  rw [Vector.getElem_ofFn, hindex]
  rfl

/-- Settles O17: LDDEF's effect is the default model's three registers and VALID = 0. -/
theorem lddefCompletes : Obligations.LddefCompletes := fun s => exec_eq .lddef s

end Sys2Proof.Machine


namespace Sys2Proof.Machine

/-! ## O22 to O25, O27, O29: writes and reads of the registers -/

/-- The write of a guarded location while nothing is pending is the store of its register (R54). -/
theorem step_writeAccess_idle {s : State} {r : Reg} (hidle : s.block.pend = none)
    (hr : r ≠ .status ∧ r ≠ .result ∧ ∀ i, r ≠ .table i) (v : Word) (rest : List Event) :
    step { s with agenda := .host (r.writeAccess v) :: rest } =
      .next { s with block := s.block.writeIdle v r, response := some .ok, agenda := rest } := by
  rw [step_writeAccess, Block.write_idle hidle hr]

/-- Settles O22: the stores of POLY and FLAGS. -/
theorem polyAndFlagsWritesStoreAndInvalidate : Obligations.PolyAndFlagsWritesStoreAndInvalidate :=
  fun _ v rest hidle => ⟨step_writeAccess_idle hidle (by simp) v rest, step_writeAccess_idle hidle (by simp) v rest⟩

/-- Settles O23: the stores of INIT, XOROUT and OPERAND. -/
theorem initXoroutOperandWritesStoreOnly : Obligations.InitXoroutOperandWritesStoreOnly :=
  fun _ v rest hidle => ⟨step_writeAccess_idle hidle (by simp) v rest, step_writeAccess_idle hidle (by simp) v rest,
    step_writeAccess_idle hidle (by simp) v rest⟩

/-- Settles O25: neither location has a busy check, and both raise ACC_ERR. -/
theorem readOnlyWritesRaiseAccErr : Obligations.ReadOnlyWritesRaiseAccErr := by
  intro s v rest r hr
  rw [step_writeAccess, ← Block.raise_acc]
  obtain rfl | ⟨i, rfl⟩ := hr <;> rfl

/-- The word of R33 is REFOUT and REFIN, side by side. -/
theorem Block.flagsWord_eq (b : Block) :
    b.flagsWord = (BitVec.ofBool b.refout ++ BitVec.ofBool b.refin).setWidth 32 := by
  unfold Block.flagsWord
  generalize b.refout = refout, b.refin = refin
  revert refout refin
  decide

/-- Settles O27: none of the eight locations is a table entry, so their reads change nothing. -/
theorem registerReadsReturnTheirValue : Obligations.RegisterReadsReturnTheirValue := by
  intro s rest r w hmem
  rw [← Block.flagsWord_eq] at hmem
  simp only [List.mem_cons, List.not_mem_nil, or_false, Prod.mk.injEq] at hmem
  obtain ⟨rfl, rfl⟩ | ⟨rfl, rfl⟩ | ⟨rfl, rfl⟩ | ⟨rfl, rfl⟩ | ⟨rfl, rfl⟩ | ⟨rfl, rfl⟩ | ⟨rfl, rfl⟩ | ⟨rfl, rfl⟩ := hmem <;>
    exact step_readAccess s _ rest

/-- An address off the window has no offset (R45, R47). -/
theorem windowOffset_eq_none {addr : Nat} (h : addr < Config.crctgBase ∨ Config.crctgBase + 0x7FF < addr) :
    windowOffset addr = none := by
  unfold windowOffset Config.windowBytes
  exact if_neg (by omega)

/-- Settles O29: without an offset no access reaches CRCTG's port. -/
theorem addressesOutsideTheWindowDoNotReachIt : Obligations.AddressesOutsideTheWindowDoNotReachIt := by
  intro s addr size v rest hout
  have hoff := windowOffset_eq_none hout
  constructor <;> rw [step_host rfl]
  · simp [State.hostStep, Access.perform, memRead, hoff]
  · simp [State.hostStep, Access.perform, memWrite, hoff]

/-! ## O24: a store and the next read -/

/-- A legal WIDTH value fits the 6 bits of the register (R30). -/
theorem zext32_setWidth_of_le {v : Word} (h : v.toNat ≤ 32) : zext32 (v.setWidth 6) = v := by
  apply BitVec.eq_of_toNat_eq
  simp only [zext32, BitVec.toNat_setWidth]
  omega

/-- FLAGS has the two low bits of what was written (R33). -/
theorem Block.writeFlags_flagsWord (b : Block) (v : Word) : (b.writeFlags v).flagsWord = v &&& 3 := by
  apply BitVec.eq_of_getLsbD_eq
  intro j hj
  simp only [Block.flagsWord, BitVec.getLsbD_or, BitVec.getLsbD_and, getLsbD_fieldAt, Block.writeFlags_refin,
    Block.writeFlags_refout]
  match j with
  | 0 | 1 => simp
  | j + 2 =>
    have hpow : 2 ^ 2 ≤ 2 ^ (j + 2) := Nat.pow_le_pow_right Nat.two_pos (Nat.le_add_left 2 j)
    have hhigh : (3#32).getLsbD (j + 2) = false := Nat.testBit_lt_two_pow (Nat.lt_of_lt_of_le (by decide) hpow)
    simp [hhigh]

/-- Settles O24: the read after an idle write returns the register the store left. -/
theorem idleWritesReadBack : Obligations.IdleWritesReadBack := by
  intro s t v r rest hidle hwrite
  have hread {w : Word} (hr : r ≠ .status ∧ r ≠ .result ∧ ∀ i, r ≠ .table i)
      (hw : (s.block.writeIdle v r).readValue r = w) : ∃ u, step t = .next u ∧ u.response = some (.data w) := by
    rw [step_writeAccess_idle hidle hr] at hwrite
    cases hwrite
    subst hw
    exact ⟨_, step_readAccess { s with block := s.block.writeIdle v r, response := some .ok } r rest, rfl⟩
  refine ⟨fun hr => ?_, ?_, ?_⟩
  · simp only [List.mem_cons, List.not_mem_nil, or_false] at hr
    obtain rfl | rfl | rfl | rfl := hr <;> exact hread (by simp) rfl
  · rintro rfl hlow hhigh
    obtain ⟨-, -, hw⟩ | ⟨hillegal, -⟩ := s.block.writeWidth_cases v
    · refine hread (by simp) ?_
      rw [Block.writeIdle, hw]
      exact zext32_setWidth_of_le hhigh
    · exact absurd ⟨hlow, hhigh⟩ hillegal
  · rintro rfl
    exact hread (by simp) (s.block.writeFlags_flagsWord v)

/-! ## O6, O7, O8: where a command runs -/

/-- Settles O6: the write is the acceptance, and the engine's turn then completes what it accepted. -/
theorem issuedWordRunsAtTheEngineStep : Obligations.IssuedWordRunsAtTheEngineStep := by
  intro s v i rest hidle hword
  refine ⟨?_, step_engine rfl rfl⟩
  rw [step_writeAccess, Block.write_cmd_of_command hidle hword]

/-- Settles O7: with events to come the engine's turn is put first, and with none the pending command runs. -/
theorem fetchedWordRunsNext : Obligations.FetchedWordRunsNext := by
  rintro ⟨b, agenda, response, draws⟩ nbits w i hword
  simp only [State.withFetchWord, hword]
  cases agenda with
  | nil => exact step_nil_pending rfl rfl
  | cons => exact step_engine rfl rfl

/-- Settles O8: the engine's step by whether a command is pending. -/
theorem engineStepRunsThePendingCommand : Obligations.EngineStepRunsThePendingCommand :=
  ⟨fun _ _ _ hpend => ⟨step_engine hpend rfl, step_nil_pending hpend rfl⟩, fun _ _ hpend => step_engine_idle hpend rfl⟩

/-! ## O32, O35: what a step sets and writes -/

/-- R117's causes exclude each other: each is of its own location, or needs its own value of BUSY (R122). -/
theorem Block.WriteCauses.unique {b : Block} {r : Reg} {v : Word} {e e' : Err} (h : b.WriteCauses r v e)
    (h' : b.WriteCauses r v e') : e = e' := by
  cases e with
  | cfg =>
    obtain ⟨hidle, rfl, -⟩ := h
    cases e' <;> simp [Block.WriteCauses, hidle] at h' ⊢
  | cmd =>
    obtain ⟨hidle, rfl, -⟩ := h
    cases e' <;> simp [Block.WriteCauses, hidle] at h' ⊢
  | busy =>
    obtain ⟨hbusy, hr⟩ := h
    obtain ⟨-, hresult, htable⟩ := Reg.mem_busyGuarded.mp hr
    cases e' <;> simp [Block.WriteCauses, hbusy, hresult, htable] at h' ⊢
  | acc =>
    obtain rfl | ⟨i, rfl⟩ := h <;> cases e' <;> simp [Block.WriteCauses] at h' ⊢

/-- A step has the cause of at most one error (R122). -/
theorem State.NextCauses.unique {s : State} {e e' : Err} (h : s.NextCauses e) (h' : s.NextCauses e') : e = e' := by
  by_cases hnone : ∀ a, s.agenda.head? = some (.host a) → a.NamesNoLocation
  · exact absurd h (State.not_nextCauses hnone e)
  · push Not at hnone
    obtain ⟨a, hhead, ha⟩ := hnone
    obtain ⟨r, rfl⟩ | ⟨r, v, rfl⟩ | hno := a.cases
    · rw [State.nextCauses_of_read hhead] at h h'
      exact h.1.trans h'.1.symm
    · rw [State.nextCauses_of_write hhead] at h h'
      exact h.unique h'
    · exact absurd hno ha

/-- An error bit that a step sets has its cause in the step (R27). -/
theorem nextCauses_of_errBit_set {s t : State} {e : Err} (hstep : step s = .next t) (hclear : s.block.errBit e = false)
    (hset : t.block.errBit e = true) : s.NextCauses e := by
  obtain hcause | ⟨hbefore, -⟩ := (errorBitsAreStickyAndCaused s t e hstep).mp hset
  · exact hcause
  · simp [hclear] at hbefore

/-- Settles O32: both bits have their cause in the step, and causes exclude each other. -/
theorem oneAccessRaisesAtMostOneError : Obligations.OneAccessRaisesAtMostOneError :=
  fun _ _ _ _ hstep hclear hset hclear' hset' =>
    (nextCauses_of_errBit_set hstep hclear hset).unique (nextCauses_of_errBit_set hstep hclear' hset')

/-- Nothing the host writes reaches RESULT (R36). -/
@[simp] theorem Block.write_result (b : Block) (r : Reg) (v : Word) : (b.write r v).result = b.result := by
  by_cases hr : r = .result
  · subst hr
    rfl
  · exact b.write_readValue v hr (r' := .result) (by simp) (by simp)

@[simp] theorem Block.afterRead_result (b : Block) (r : Reg) : (b.afterRead r).result = b.result := by
  obtain h | ⟨_, -, -, h⟩ := b.afterRead_cases r <;> simp [h]

@[simp] theorem Block.afterRead_table (b : Block) (r : Reg) : (b.afterRead r).table = b.table := by
  obtain h | ⟨_, -, -, h⟩ := b.afterRead_cases r <;> simp [h]

/-- Settles O35, by the step's kinds: no access reaches RESULT or the table RAM, and of the commands' effects only those
named do. -/
theorem resultAndTableHaveOneWriter : Obligations.ResultAndTableHaveOneWriter := by
  intro s t hstep hnoreset
  have hblock := blockStep_of_step hstep
  generalize t.block = b at hblock
  cases hblock with
  | unserved | idle | read | write => simp
  | reset h => exact absurd (State.nextResets_iff.mpr h) hnoreset
  | @completion i hpend h =>
    have hcompletes : s.NextCompletes i := State.nextCompletes_iff.mpr ⟨hpend, h⟩
    cases i with
    | nop | lddef => simp [effectOf]
    | reflect bc => exact ⟨fun _ => .inl ⟨bc, hcompletes⟩, fun hne => absurd rfl hne⟩
    | mask => exact ⟨fun _ => .inr (.inl hcompletes), fun hne => absurd rfl hne⟩
    | byterem idx => exact ⟨fun _ => .inr (.inr ⟨idx, hcompletes⟩), fun hne => absurd rfl hne⟩
    | generate => exact ⟨fun hne => absurd rfl hne, fun _ => hcompletes⟩

/-! ## O37: a pending command completes -/

/-- Host accesses leave the pending command pending, and the first event that is none is the engine's, or the agenda ends:
after at most the agenda's length of steps the engine is next. -/
theorem core_run_to_completion (agenda : List Event) (s : State) {i : Instr} (hpend : s.block.pend = some i)
    (hnoreset : Event.reset ∉ agenda) :
    ∃ k ≤ agenda.length, ∃ u : State,
      Sys2Proof.core.run k { s with agenda := agenda } = .next u ∧ u.NextCompletes i := by
  induction agenda generalizing s with
  | nil => exact ⟨0, le_rfl, _, rfl, hpend, .inl rfl⟩
  | cons e agenda ih =>
    cases e with
    | reset => simp at hnoreset
    | engine => exact ⟨0, Nat.zero_le _, _, rfl, hpend, .inr ⟨agenda, rfl⟩⟩
    | host a =>
      have hbusy : s.block.pend ≠ none := by simp [hpend]
      have hkept : (s.hostStep a).block.pend = some i :=
        (Access.sameButClearable_perform hbusy a).pend_eq.trans hpend
      obtain ⟨k, hk, u, hrun, hnext⟩ := ih (s.hostStep a) hkept fun h => hnoreset (.tail _ h)
      exact ⟨k + 1, Nat.succ_le_succ hk, u, (core_run_succ (step_host rfl)).trans hrun, hnext⟩

/-- Settles O37: the engine's turn comes, and its completion always answers a next state. -/
theorem pendingCommandCompletes : Obligations.PendingCommandCompletes := by
  intro s i hpend hnoreset
  obtain ⟨k, hk, u, hrun, hnext⟩ := core_run_to_completion s.agenda s hpend hnoreset
  have hstep : ∃ rest, step u = .next { u with block := (effectOf i u.block).finish, agenda := rest } := by
    obtain ⟨hupend, hag | ⟨rest, hag⟩⟩ := hnext
    · exact ⟨[], step_completion hupend (.inr ⟨hag, rfl⟩)⟩
    · exact ⟨rest, step_completion hupend (.inl hag)⟩
  obtain ⟨rest, hstep⟩ := hstep
  exact ⟨k, hk, u, _, hrun, hnext, hstep, rfl, rfl⟩

/-! ## O39, O40, O42: the invariants of WIDTH and of the pending command -/

/-- The default width is legal (R8, R30). -/
theorem Block.widthLegal_of_default {b : Block} (h : b.width = Config.defaultWidth) : b.WidthLegal := by
  rw [Block.WidthLegal, h]
  decide

/-- A store puts only a legal value in WIDTH (R31). -/
theorem Block.WidthLegal.writeIdle {b : Block} (hb : b.WidthLegal) (r : Reg) (v : Word) :
    (b.writeIdle v r).WidthLegal := by
  cases r with
  | cmd => obtain ⟨_, -, hissue⟩ | ⟨_, -, hissue⟩ := b.issue_cases v <;> rw [Block.writeIdle, hissue] <;> exact hb
  | width =>
    obtain ⟨hlow, hhigh, hwidth⟩ | ⟨-, hwidth⟩ := b.writeWidth_cases v <;> rw [Block.writeIdle, hwidth]
    · simp only [Block.WidthLegal, BitVec.toNat_setWidth]
      omega
    · exact hb
  | _ => exact hb

theorem Block.WidthLegal.write {b : Block} (hb : b.WidthLegal) (r : Reg) (v : Word) : (b.write r v).WidthLegal := by
  obtain ⟨-, hw⟩ | ⟨-, hw⟩ | ⟨-, ⟨-, hw⟩ | ⟨-, hw⟩⟩ := b.write_cases r v <;> rw [hw]
  · exact hb
  · exact hb
  · exact hb
  · exact hb.writeIdle r v

/-- LDDEF loads the legal default, and no other command writes WIDTH (R113). -/
theorem Block.WidthLegal.completion {b : Block} (hb : b.WidthLegal) (i : Instr) :
    (effectOf i b).finish.WidthLegal := by
  cases i with
  | lddef => exact Block.widthLegal_of_default rfl
  | _ => exact hb

/-- Settles O39, by the step's kinds. -/
theorem widthStaysInRange : Obligations.WidthStaysInRange := by
  intro s t hlegal hstep
  have hblock := blockStep_of_step hstep
  generalize t.block = b at hblock
  cases hblock with
  | unserved | idle => exact hlegal
  | @read r => obtain hr | ⟨_, -, -, hr⟩ := s.block.afterRead_cases r <;> rw [hr] <;> exact hlegal
  | write => exact hlegal.write _ _
  | completion => exact hlegal.completion _
  | reset => exact Block.widthLegal_of_default rfl

/-- With nothing pending there is nothing to show. -/
theorem Block.pendLegal_of_idle {b : Block} (h : b.pend = none) : b.PendLegal :=
  fun i hi => absurd (h.symm.trans hi) (Option.some_ne_none i).symm

/-- An accepted command is well formed, since the decoder gave it, and its acceptance clears DONE and, for GENERATE,
VALID (R82). -/
theorem Block.pendLegal_accept {b : Block} {v : Word} {i : Instr} (hword : decode v = .command i) :
    (b.accept i).PendLegal := by
  rintro _ ⟨⟩
  obtain ⟨hwf, -⟩ := decode_eq_command_iff.mp hword
  exact ⟨hwf, rfl, fun hgenerate => if_pos hgenerate⟩

/-- Only an acceptance makes a command pending (R82). -/
theorem Block.pendLegal_writeIdle {b : Block} (hidle : b.pend = none) (r : Reg) (v : Word) :
    (b.writeIdle v r).PendLegal := by
  cases r with
  | cmd =>
    obtain ⟨_, -, hissue⟩ | ⟨i, hword, hissue⟩ := b.issue_cases v <;> rw [Block.writeIdle, hissue]
    · exact Block.pendLegal_of_idle hidle
    · exact Block.pendLegal_accept hword
  | width =>
    obtain ⟨-, -, hwidth⟩ | ⟨-, hwidth⟩ := b.writeWidth_cases v <;>
      exact Block.pendLegal_of_idle (by simpa [Block.writeIdle, hwidth] using hidle)
  | _ => exact Block.pendLegal_of_idle hidle

/-- A STATUS write can only clear DONE (R28). -/
theorem Block.PendLegal.clearOnes {b : Block} (hb : b.PendLegal) (v : Word) : (b.clearOnes v).PendLegal := by
  intro i hi
  obtain ⟨hwf, hdone, hgenerate⟩ := hb i hi
  exact ⟨hwf, by simp [hdone], hgenerate⟩

theorem Block.PendLegal.raise {b : Block} (hb : b.PendLegal) (e : Err) : (b.raise e).PendLegal := hb

theorem Block.PendLegal.write {b : Block} (hb : b.PendLegal) (r : Reg) (v : Word) : (b.write r v).PendLegal := by
  obtain ⟨-, hw⟩ | ⟨-, hw⟩ | ⟨-, ⟨-, hw⟩ | ⟨hidle, hw⟩⟩ := b.write_cases r v <;> rw [hw]
  · exact hb.clearOnes v
  · exact hb.raise .acc
  · exact hb.raise .busy
  · exact Block.pendLegal_writeIdle (b.busy_eq_false.mp hidle) r v

/-- Settles O40, by the step's kinds: after a completion or a reset nothing is pending. -/
theorem pendingCommandStaysLegal : Obligations.PendingCommandStaysLegal := by
  intro s t hlegal hstep
  have hblock := blockStep_of_step hstep
  generalize t.block = b at hblock
  cases hblock with
  | unserved | idle => exact hlegal
  | @read r => obtain hr | ⟨_, -, -, hr⟩ := s.block.afterRead_cases r <;> rw [hr] <;> exact hlegal
  | write => exact hlegal.write _ _
  | completion | reset => exact Block.pendLegal_of_idle rfl

/-- Settles O42: WIDTH is 16, VALID is 0 and nothing is pending. -/
theorem resetStateIsLegal : Obligations.ResetStateIsLegal where
  width := Block.widthLegal_of_default rfl
  table := fun hvalid => absurd hvalid Bool.false_ne_true
  pend := Block.pendLegal_of_idle rfl

end Sys2Proof.Machine
